-- ==== Sys2Proof/Word.lean ====
section
/-! DEFINITION. The words of SmartPA-GMS: their widths (00_scope.md R9, R10; 30_encoding.md R70). -/

namespace Sys2Proof

/-- A `Word32` of R10: the decibel operand of MAP, A and B, and the words of SLOPE and OFFSET. -/
abbrev Word32 := BitVec 32

/-- A `Code` of R10: the chip's 8-bit attenuation code; also the width of OP. -/
abbrev Code := BitVec 8

/-- A word of format C (R70): OP in bits 71..64, A in 63..32, B in 31..0 (R71). -/
abbrev CmdWord := BitVec 72

end Sys2Proof
end

