-- ==== Sys2Proof/Config.lean ====
section
/-! DEFINITION. The configuration record of SmartPA-GMS (10_state.md R20 to R27, 40_gain_mapper.md R104), and the
free values of the model: what SER answers when no reply is scripted for it (42_set_gain.md R164, R165). -/

namespace Sys2Proof

/-- The level of a digital output line (R10). -/
inductive Level where
  | low
  | high
deriving DecidableEq, Repr

/-- `not LOW = HIGH` and `not HIGH = LOW` (R10). -/
def Level.inverse : Level → Level
  | .low => .high
  | .high => .low

/-- The eight configuration constants (R20): "an argument of the machine, chosen before reset and the same in every
state of a run". Which records are legal is `Machine.legalConfig`; `nanCode` is a number and not a byte so that an
illegal record such as NAN_CODE = 256 can be written down and refused. -/
structure Config where
  /-- SLOPE, a binary32 word (R21). -/
  slope : Word32
  /-- OFFSET, a binary32 word (R22). -/
  offset : Word32
  /-- T_SETUP_MS (R23). -/
  tSetupMs : BitVec 16
  /-- T_HOLD_MS (R24). -/
  tHoldMs : BitVec 16
  /-- TIMEOUT_MS (R25). -/
  timeoutMs : BitVec 16
  /-- CS_ACTIVE_LEVEL (R26). -/
  csActiveLevel : Level
  /-- MUTE_MUTING_LEVEL (R27). -/
  muteMutingLevel : Level
  /-- NAN_CODE (R104). -/
  nanCode : Nat
deriving DecidableEq, Repr

namespace Config

/-- The default record: SLOPE 2.0, OFFSET 192, both delays 1, TIMEOUT_MS 1000, both levels LOW, NAN_CODE 0
(R21 to R27, R104). -/
def default : Config where
  slope := 0x40000000
  offset := 0x43400000
  tSetupMs := 1
  tHoldMs := 1
  timeoutMs := 1000
  csActiveLevel := .low
  muteMutingLevel := .low
  nanCode := 0

/-- FREE VALUE (log 3): the TX_STATUS of SER's n-th unscripted reply. R164: "The answer of SER is a free input."
No body: nothing can be proved about which answer it is. -/
opaque freeTxStatus : Nat → BitVec 2

/-- FREE VALUE (log 3, log 7): how many bits SER's n-th unscripted reply had clocked out if it failed. R165: "any
prefix of the 16 bits, from none to all". -/
opaque freeBitsClocked : Nat → Nat

end Config

end Sys2Proof
end

