-- ==== Sys2Proof/Machine/Operands.lean ====
section
/-! DEFINITION. Operand assembly: `dec32` (30_encoding.md R75, R76), exactly and in whole numbers. -/

namespace Sys2Proof.Machine

/-- The fields of a binary32 word (R75). -/
def signBit (w : Word32) : BitVec 1 := w.extractLsb' 31 1
def expField (w : Word32) : Nat := (w.extractLsb' 23 8).toNat
def sigField (w : Word32) : Nat := (w.extractLsb' 0 23).toNat

/-- The four classes of R76. A finite value is held as a whole number of units of 2^(-149): R101, "every finite
binary32 value is an integer multiple of 2^−149", so nothing is rounded (DEDUCED, log 6). -/
inductive Decoded where
  | nan
  | posInf
  | negInf
  | finite (units : Int)
deriving DecidableEq, Repr

/-- R76: the magnitude of a finite word in units of 2^(-149); m for a zero or a subnormal, and
(2^23 + m) · 2^(e - 150) = ((2^23 + m) · 2^(e - 1)) · 2^(-149) for a normal. -/
def magnitude (e m : Nat) : Nat :=
  if e = 0 then m else (2 ^ 23 + m) * 2 ^ (e - 1)

/-- R76: `dec32`. The sign of a zero and the sign and payload of a NaN are dropped. -/
def dec32 (w : Word32) : Decoded :=
  if expField w = 255 then
    if sigField w = 0 then (if signBit w = 0 then .posInf else .negInf) else .nan
  else
    let mag : Int := magnitude (expField w) (sigField w)
    .finite (if signBit w = 0 then mag else -mag)

/-- The value of a configuration word, in units of 2^(-149). Only finite words are legal there (R21, R22). -/
def configUnits (w : Word32) : Int :=
  match dec32 w with
  | .finite n => n
  | _ => 0

end Sys2Proof.Machine
end

