-- ==== Sys2Proof/Syntax.lean ====
section
/-! DEFINITION. The instructions of SmartPA-GMS: one constructor per row of the opcode table (30_encoding.md R87). -/

namespace Sys2Proof

/-- What can be asked of the block (R87). MUTE, UNMUTE and the reserved opcodes carry the operand fields A and B that
the block ignores (R74), and the reserved rows that span several opcodes carry OP, so that a term stands for exactly
one port word. INIT has no encoding and no constructor (R86). -/
inductive Instr where
  /-- MAP: the word on MAP_IN (R73, R100). -/
  | map (w : Word32)
  /-- MUTE, OP 0x01 (R133). -/
  | mute (a b : Word32)
  /-- UNMUTE, OP 0x02 (R134). -/
  | unmute (a b : Word32)
  /-- SETGAIN, OP 0x03, A the left and B the right decibel word (R150). -/
  | setgain (a b : Word32)
  /-- ILLEGAL_00, OP 0x00 (R74). -/
  | illegal00 (a b : Word32)
  /-- ILLEGAL_04, OP 0x04 to 0x07 (R74, R87). -/
  | illegal04 (op : BitVec 8) (a b : Word32)
  /-- ILLEGAL_08, OP 0x08 to 0x0F (R74, R87). -/
  | illegal08 (op : BitVec 8) (a b : Word32)
  /-- ILLEGAL_10, OP 0x10 to 0x1F (R74, R87). -/
  | illegal10 (op : BitVec 8) (a b : Word32)
  /-- ILLEGAL_20, OP 0x20 to 0x3F (R74, R87). -/
  | illegal20 (op : BitVec 8) (a b : Word32)
  /-- ILLEGAL_40, OP 0x40 to 0x7F (R74, R87). -/
  | illegal40 (op : BitVec 8) (a b : Word32)
  /-- ILLEGAL_80, OP 0x80 to 0xFF (R74, R87). -/
  | illegal80 (op : BitVec 8) (a b : Word32)
deriving DecidableEq, Repr

end Sys2Proof
end

