-- ==== Sys2Proof/WellFormed.lean ====
section
/-! DEFINITION. When a term of `Instr` stands for a port word: the OP a reserved row carries lies in that row's range
(30_encoding.md R87). Every other field may hold any bits (R74: no value of A or B is illegal). -/

namespace Sys2Proof

/-- OP lies in the range a row of the reserved space covers. -/
def opIn (op : BitVec 8) (lo hi : Nat) : Bool :=
  decide (lo ≤ op.toNat) && decide (op.toNat ≤ hi)

/-- R87's tiling of the reserved opcode space; the other rows have no field to check. -/
def Instr.wellFormed : Instr → Bool
  | .map _ => true
  | .mute _ _ => true
  | .unmute _ _ => true
  | .setgain _ _ => true
  | .illegal00 _ _ => true
  | .illegal04 op _ _ => opIn op 0x04 0x07
  | .illegal08 op _ _ => opIn op 0x08 0x0F
  | .illegal10 op _ _ => opIn op 0x10 0x1F
  | .illegal20 op _ _ => opIn op 0x20 0x3F
  | .illegal40 op _ _ => opIn op 0x40 0x7F
  | .illegal80 op _ _ => opIn op 0x80 0xFF

end Sys2Proof
end

