-- ==== Sys2Proof/Decode.lean ====
section
/-! DEFINITION. The decoder and the encoder of SmartPA-GMS (30_encoding.md R70 to R74, R81, R87), and the opcode
table as match and mask rows. -/

namespace Sys2Proof

/-- The fields of a command word (R71). -/
def cmdOp (w : CmdWord) : BitVec 8 := w.extractLsb' 64 8
def cmdA (w : CmdWord) : Word32 := w.extractLsb' 32 32
def cmdB (w : CmdWord) : Word32 := w.extractLsb' 0 32

/-- OP ++ A ++ B, OP most significant (R9, R71). -/
def commandWord (op : BitVec 8) (a b : Word32) : CmdWord := op ++ a ++ b

/-- A word together with the port it arrives on. R70: "A decoder tells the format by the port the word arrives on,
never by its bits." -/
inductive PortWord where
  | mapPort (w : Word32)
  | commandPort (w : CmdWord)
deriving DecidableEq, Repr

/-- Why a table word is no port word: no format has that many bits (R82), or the number does not fit them. -/
inductive DecodeError where
  | noFormat (nbits : Nat)
  | tooWide (nbits w : Nat)
deriving DecidableEq, Repr

/-- R72 and R87: a command word decodes by OP alone; every reserved OP falls under exactly one ILLEGAL row. -/
def decodeCommand (w : CmdWord) : Instr :=
  let op := cmdOp w
  let a := cmdA w
  let b := cmdB w
  if op = 0x01 then .mute a b
  else if op = 0x02 then .unmute a b
  else if op = 0x03 then .setgain a b
  else if op = 0x00 then .illegal00 a b
  else if op.toNat < 0x08 then .illegal04 op a b
  else if op.toNat < 0x10 then .illegal08 op a b
  else if op.toNat < 0x20 then .illegal10 op a b
  else if op.toNat < 0x40 then .illegal20 op a b
  else if op.toNat < 0x80 then .illegal40 op a b
  else .illegal80 op a b

/-- R81: decoding is total on both ports. -/
def decode : PortWord → Instr
  | .mapPort w => .map w
  | .commandPort w => decodeCommand w

/-- The word an instruction stands for, and its port. -/
def encode : Instr → PortWord
  | .map w => .mapPort w
  | .mute a b => .commandPort (commandWord 0x01 a b)
  | .unmute a b => .commandPort (commandWord 0x02 a b)
  | .setgain a b => .commandPort (commandWord 0x03 a b)
  | .illegal00 a b => .commandPort (commandWord 0x00 a b)
  | .illegal04 op a b => .commandPort (commandWord op a b)
  | .illegal08 op a b => .commandPort (commandWord op a b)
  | .illegal10 op a b => .commandPort (commandWord op a b)
  | .illegal20 op a b => .commandPort (commandWord op a b)
  | .illegal40 op a b => .commandPort (commandWord op a b)
  | .illegal80 op a b => .commandPort (commandWord op a b)

/-- The port word a table entry of `nbits` bits and value `w` denotes: 32 bits for format M, 72 for format C (R70,
R82); any other length, and a value that does not fit, is rejected by name. -/
def portWordOfTable (nbits w : Nat) : Except DecodeError PortWord :=
  if nbits = 32 then
    if w < 2 ^ 32 then .ok (.mapPort (BitVec.ofNat 32 w)) else .error (.tooWide nbits w)
  else if nbits = 72 then
    if w < 2 ^ 72 then .ok (.commandPort (BitVec.ofNat 72 w)) else .error (.tooWide nbits w)
  else .error (.noFormat nbits)

/-- The instruction read from a table word. The port takes its word whole, so the table's numbering (bit 0 the least
significant) is the port's own (R9). -/
def decodeTableWord (nbits w : Nat) : Option Instr :=
  match portWordOfTable nbits w with
  | .ok p => some (decode p)
  | .error _ => none

/-- The length and the value of a port word, as the opcode table counts them (R70, R82). -/
def PortWord.nbits : PortWord → Nat
  | .mapPort _ => 32
  | .commandPort _ => 72

def PortWord.value : PortWord → Nat
  | .mapPort w => w.toNat
  | .commandPort w => w.toNat

/-- A format C row of the opcode table, cut to its OP byte: the match and mask bits below bit 64 are all 0 (R72). -/
structure OpRow where
  mnemonic : String
  opMatch : BitVec 8
  opMask : BitVec 8
deriving DecidableEq, Repr

/-- The ten format C rows, in the table's order (R72, R87). -/
def commandRows : List OpRow :=
  [ ⟨"MUTE", 0x01, 0xFF⟩, ⟨"UNMUTE", 0x02, 0xFF⟩, ⟨"SETGAIN", 0x03, 0xFF⟩,
    ⟨"ILLEGAL_00", 0x00, 0xFF⟩, ⟨"ILLEGAL_04", 0x04, 0xFC⟩, ⟨"ILLEGAL_08", 0x08, 0xF8⟩,
    ⟨"ILLEGAL_10", 0x10, 0xF0⟩, ⟨"ILLEGAL_20", 0x20, 0xE0⟩, ⟨"ILLEGAL_40", 0x40, 0xC0⟩,
    ⟨"ILLEGAL_80", 0x80, 0x80⟩ ]

/-- A 72-bit word matches a row when the row's mask takes the row's match out of it (R72). -/
def OpRow.matchesWord (r : OpRow) (w : CmdWord) : Bool :=
  (w &&& commandWord r.opMask 0 0) == commandWord r.opMatch 0 0

/-- The table's mnemonic of an instruction. -/
def Instr.mnemonic : Instr → String
  | .map _ => "MAP"
  | .mute _ _ => "MUTE"
  | .unmute _ _ => "UNMUTE"
  | .setgain _ _ => "SETGAIN"
  | .illegal00 _ _ => "ILLEGAL_00"
  | .illegal04 _ _ _ => "ILLEGAL_04"
  | .illegal08 _ _ _ => "ILLEGAL_08"
  | .illegal10 _ _ _ => "ILLEGAL_10"
  | .illegal20 _ _ _ => "ILLEGAL_20"
  | .illegal40 _ _ _ => "ILLEGAL_40"
  | .illegal80 _ _ _ => "ILLEGAL_80"

end Sys2Proof
end

