-- ==== Sys2Proof/Machine/State.lean ====
section
/-! DEFINITION. The state of SmartPA-GMS (10_state.md R20 to R37), its event alphabet (00_scope.md R12), the reasons a
step can stop, and the state after reset (10_state.md R36). -/

namespace Sys2Proof.Machine

/-- The two output lines (R10, R28): "a model represents the bindings by the identity of the two Line values". -/
inductive Line where
  | cs
  | mute
deriving DecidableEq, Repr

/-- The values of PHASE (R30). -/
inductive Phase where
  | idle
  | sAssert
  | sSetup
  | sXfer
  | sHold
  | sRelease
deriving DecidableEq, Repr

/-- SER's answer to a Transmit (R10). -/
inductive XferAnswer where
  | success
  | timeout
  | error
deriving DecidableEq, Repr

/-- What a command reports (R10, R78). -/
inductive Result where
  | ok
  | xferTimeout
  | xferError
  | illegalCmd
deriving DecidableEq, Repr

/-- The event alphabet (R12). `transmit` carries SER's answer, as R12 writes it. -/
inductive Event where
  | setLevel (line : Line) (level : Level)
  | delay (ms : Nat)
  | transmit (b0 b1 : Code) (count : Nat) (timeoutMs : Nat) (answer : XferAnswer)
  | done (r : Result)
deriving DecidableEq, Repr

/-- What HOST does at one moment (R71, R73); the model's own rendering of HOST as an agent (log 2). -/
inductive HostMove where
  /-- CMD_VALID with this word. While the block is busy the word waits and HOST keeps it (`keep = true`) or withdraws
  it (`keep = false`): R71, "HOST may withdraw or keep it". -/
  | command (w : CmdWord) (keep : Bool)
  /-- MAP_IN is driven with this word (R73). -/
  | mapIn (w : Word32)
  /-- A moment at which HOST offers nothing (R157, row "no command accepted"). -/
  | quiet
deriving DecidableEq, Repr

/-- One reply of SER to a Transmit: TX_STATUS as driven (R79), and how many bits had been clocked out if the transfer
failed (R165; not looked at on success). -/
structure SerReply where
  status : BitVec 2
  clocked : Nat
deriving DecidableEq, Repr

/-- Everything the spec gives the machine, and the model's own rendering of its two free environments. `Option` is the
spec's own "no value" (R10's ⊥), never a missing reset value. -/
structure State where
  /-- The configuration record (R20): written by no step. -/
  cfg : Config
  /-- PHASE (R30). -/
  phase : Phase
  /-- LCODE (R31). -/
  lcode : Option Code
  /-- RCODE (R31). -/
  rcode : Option Code
  /-- PAY, the one address space (R50, R51): (address, byte) cells, an unlisted address holding no value. -/
  pay : List Host.Cell
  /-- RES (R31). -/
  res : Option XferAnswer
  /-- CS_LEVEL, external (R34). -/
  csLevel : Option Level
  /-- MUTE_LEVEL, external (R34). -/
  muteLevel : Option Level
  /-- SET_L, external ghost (R35). -/
  setL : Option Code
  /-- SET_R, external ghost (R35). -/
  setR : Option Code
  /-- The event sequence of the run, oldest first (R7, R12). -/
  events : List Event
  /-- The bits SER has put on the serial data line, oldest first (20_memory.md R53, R165). -/
  wire : List Bool
  /-- MAP_IN (R73). -/
  mapIn : Word32
  /-- The model's own: HOST's coming moves, the next one first (log 2). -/
  host : List HostMove
  /-- The model's own: SER's coming replies, the next one first; past the end a free value (log 3). -/
  ser : List SerReply
  /-- The model's own: how many free replies of SER have been drawn (log 3). -/
  draws : Nat
deriving DecidableEq, Repr

/-- Why the machine stops. Both are safe, and neither is reached by a step from a state that meets `State.Inv`. -/
inductive Fault where
  /-- Raised by the payload operations of Ops: an access to PAY at an address or with a width that 20_memory.md R54
  says does not exist. Safe. -/
  | payloadAccess (addr width : Nat)
  /-- Raised by the payload reads of Ops and by the sequencer's reads of its latches: the thing read holds no value.
  00_scope.md R10: reading it "is never done by any rule of this spec". Safe. -/
  | noValue
deriving DecidableEq, Repr

/-- Why nothing has a meaning. -/
inductive Refusal where
  /-- Raised by `exec` for an instruction without a meaning; no arm does so. Safe. -/
  | notModelled (mnemonic : String)
  /-- Raised by `construct`: an illegal configuration record "is refused before the machine exists" (R130, U16). Safe. -/
  | illegalConfig
deriving DecidableEq, Repr

/-- The state INIT leaves for a configuration record (R36, R130): IDLE, every latch, line and ghost code without a
value, no event. HOST and SER have nothing scripted, and MAP_IN is 0 (DESIGN CHOICE, log 4). -/
def State.init (c : Config) : State where
  cfg := c
  phase := .idle
  lcode := none
  rcode := none
  pay := []
  res := none
  csLevel := none
  muteLevel := none
  setL := none
  setR := none
  events := []
  wire := []
  mapIn := 0
  host := []
  ser := []
  draws := 0

/-- The machine right after reset, with the default configuration record (R36; log 1). -/
def State.reset : State := State.init Config.default

end Sys2Proof.Machine
end

