-- ==== Sys2Proof/Machine/Flags.lean ====
section
/-! DEFINITION. The one flag, BUSY, and the command port's signals, all derived (10_state.md R32, 30_encoding.md R71). -/

namespace Sys2Proof.Machine

/-- R32: BUSY = (PHASE ≠ IDLE). -/
def State.busy (s : State) : Bool := decide (s.phase ≠ .idle)

/-- R71: CMD_READY = not BUSY. -/
def State.cmdReady (s : State) : Bool := !s.busy

/-- R71: CMD_WORD while HOST offers a command, and nothing otherwise. -/
def State.cmdWord (s : State) : Option CmdWord :=
  match s.host with
  | .command w _ :: _ => some w
  | _ => none

/-- R71: CMD_VALID. -/
def State.cmdValid (s : State) : Bool := s.cmdWord.isSome

/-- R30: the 3-bit encoding of PHASE; the patterns 6 and 7 are never produced. -/
def Phase.bits : Phase → BitVec 3
  | .idle => 0
  | .sAssert => 1
  | .sSetup => 2
  | .sXfer => 3
  | .sHold => 4
  | .sRelease => 5

end Sys2Proof.Machine
end

