-- ==== Sys2Proof/Machine/Ops.lean ====
section
/-! DEFINITION. The shared operations every meaning is made of: the payload buffer (20_memory.md R50 to R54), the
three output primitives and the report (00_scope.md R3, R11, R12), the latches, the ghost codes, raising a failure
(60_exceptions.md R190), and acceptance of a command (30_encoding.md R71). -/

namespace Sys2Proof.Machine

/-- What a meaning answers. -/
abbrev Answer := Host.Outcome State Fault Refusal

/-- Go on with the value, or stop with the fault. -/
def orFault {α : Type} (r : Except Fault α) (k : α → Answer) : Answer :=
  match r with
  | .ok v => k v
  | .error f => .fault f

/-- Read a latch: a latch without a value is never read by any rule (R10). -/
def readLatch {α : Type} (latch : Option α) (k : α → Answer) : Answer :=
  match latch with
  | some v => k v
  | none => .fault .noValue

/-! ### The payload buffer -/

/-- The cells of PAY that hold a value. -/
abbrev Payload := List Host.Cell

/-- The canonical form: addresses strictly rising, all of them 0 or 1 (R51). An unlisted address holds no value, so
no entry can equal what an unlisted address reads as. -/
def Payload.wf (m : Payload) : Bool :=
  decide (m.Pairwise fun x y => x.1 < y.1) && m.all fun x => decide (x.1 < 2)

/-- What an address holds: a byte, or no value (⊥) when it is unlisted. -/
def Payload.lookup : Payload → Nat → Option Code
  | [], _ => none
  | (b, v) :: rest, a => if b = a then some v else Payload.lookup rest a

/-- Put a byte at an address, keeping the canonical form. -/
def Payload.insert : Payload → Nat → Code → Payload
  | [], a, v => [(a, v)]
  | (b, u) :: rest, a, v =>
    if a < b then (a, v) :: (b, u) :: rest
    else if a = b then (a, v) :: rest
    else (b, u) :: Payload.insert rest a v

/-- `MemRead(a, 1)` (R54). -/
def memReadByte (a : Nat) (s : State) : Except Fault Code :=
  if a < 2 then
    match Payload.lookup s.pay a with
    | some v => .ok v
    | none => .error .noValue
  else .error (.payloadAccess a 1)

/-- `MemRead(0, 2)` (R54): PAY[1] ++ PAY[0]. -/
def memReadPair (a : Nat) (s : State) : Except Fault (BitVec 16) :=
  if a = 0 then
    match memReadByte 0 s, memReadByte 1 s with
    | .ok lo, .ok hi => .ok (hi ++ lo)
    | .error f, _ => .error f
    | _, .error f => .error f
  else .error (.payloadAccess a 2)

/-- `MemWrite(a, 1, v)` (R54). -/
def memWriteByte (a : Nat) (v : Code) (s : State) : Except Fault State :=
  if a < 2 then .ok { s with pay := Payload.insert s.pay a v } else .error (.payloadAccess a 1)

/-- `MemWrite(0, 2, w)` (R54): PAY[0] is w[7:0] and PAY[1] is w[15:8]. -/
def memWritePair (a : Nat) (w : BitVec 16) (s : State) : Except Fault State :=
  if a = 0 then
    .ok { s with pay := Payload.insert (Payload.insert s.pay 0 (w.extractLsb' 0 8)) 1 (w.extractLsb' 8 8) }
  else .error (.payloadAccess a 2)

/-! ### Latches, PHASE, ghost codes and inputs -/

/-- `PHASE <- p` (R11). -/
def State.setPhase (p : Phase) (s : State) : State := { s with phase := p }

/-- `LCODE <- l; RCODE <- r`. -/
def State.setCodes (l r : Code) (s : State) : State := { s with lcode := some l, rcode := some r }

/-- `RES <- a`. -/
def State.setRes (a : XferAnswer) (s : State) : State := { s with res := some a }

/-- `LCODE, RCODE, PAY[0], PAY[1], RES <- ⊥`. -/
def State.clearLatches (s : State) : State :=
  { s with lcode := none, rcode := none, pay := [], res := none }

/-- `SET_L <- l; SET_R <- r` (R161). -/
def State.setGhost (l r : Option Code) (s : State) : State := { s with setL := l, setR := r }

/-- HOST drives MAP_IN (R73). -/
def State.driveMapIn (w : Word32) (s : State) : State := { s with mapIn := w }

/-- HOST's remaining moves. -/
def State.setHost (h : List HostMove) (s : State) : State := { s with host := h }

/-! ### Events -/

/-- `emit E` (R11): append the event to the run. -/
def State.emit (e : Event) (s : State) : State := { s with events := s.events ++ [e] }

/-- R34: after `SetLevel(l, v)` the level of line l is v, and the other line keeps its own. -/
def State.putLevel (l : Line) (v : Level) (s : State) : State :=
  { s with
    csLevel := match l with | .cs => some v | .mute => s.csLevel
    muteLevel := match l with | .cs => s.muteLevel | .mute => some v }

/-- `emit SetLevel(l, v)` with its effect on the line (R34, R56). -/
def State.emitLevel (l : Line) (v : Level) (s : State) : State :=
  (s.emit (.setLevel l v)).putLevel l v

/-- `emit Delay(ms)`: complete when DLY returns (R12, R204); no time is modelled (R233). -/
def State.emitDelay (ms : BitVec 16) (s : State) : State := s.emit (.delay ms.toNat)

/-- `report r`: the Done event that ends a command (R11, R71). -/
def State.report (r : Result) (s : State) : State := s.emit (.done r)

/-! ### SER -/

/-- R79: TX_STATUS read as an answer; the reserved status 3 is read as error. -/
def readStatus (t : BitVec 2) : XferAnswer :=
  if t = 0 then .success else if t = 1 then .timeout else .error

/-- SER's reply to the next Transmit: the next scripted one, or a free value (R164; log 3). -/
def State.nextReply (s : State) : SerReply :=
  match s.ser with
  | r :: _ => r
  | [] => { status := Config.freeTxStatus s.draws, clocked := Config.freeBitsClocked s.draws }

/-- SER has given its reply: "each Transmit has its own answer" (R58). -/
def State.popReply (s : State) : State :=
  { s with ser := s.ser.tail, draws := if s.ser.isEmpty then s.draws + 1 else s.draws }

/-- The bits of one byte on the wire, most significant first (R53). -/
def byteBits (b : Code) : List Bool := (List.range 8).map b.getMsbD

/-- The bits of one reply's transfer: all 16 on success, a prefix on a failure (R53, R165). -/
def clockedBits (r : SerReply) (b0 b1 : Code) : List Bool :=
  match readStatus r.status with
  | .success => byteBits b0 ++ byteBits b1
  | _ => (byteBits b0 ++ byteBits b1).take r.clocked

/-- SER puts these bits on the data line. -/
def State.clockOut (bits : List Bool) (s : State) : State := { s with wire := s.wire ++ bits }

/-- The answer SER gives to the next Transmit (R11, `SER.answer()`). -/
def State.serAnswer (s : State) : XferAnswer := readStatus s.nextReply.status

/-- `emit Transmit(b0, b1, 2, TIMEOUT_MS) -> a` (R12, R56, R154): exactly 2 bytes, with SER's answer. -/
def State.emitTransmit (b0 b1 : Code) (s : State) : State :=
  ((s.emit (.transmit b0 b1 2 s.cfg.timeoutMs.toNat s.serAnswer)).clockOut
    (clockedBits s.nextReply b0 b1)).popReply

/-! ### Failures -/

/-- The three failures (60_exceptions.md R190); the illegal OP is named by the failure and recorded nowhere (R193). -/
inductive Failure where
  | xferTimeout
  | xferError
  | illegalCmd (op : BitVec 8)
deriving DecidableEq, Repr

/-- R190: the Result of a failure. -/
def Failure.result : Failure → Result
  | .xferTimeout => .xferTimeout
  | .xferError => .xferError
  | .illegalCmd _ => .illegalCmd

/-- `raise <failure>` and its report, the one way a failure is taken: "Nothing is saved, no mode changes, no control
goes anywhere" (R199); "the Result code is the whole record" (R190). There is no return (R201). -/
def State.raiseFailure (f : Failure) (s : State) : State := s.report f.result

/-- R156, R158: what the end of a SETGAIN reports for an answer. -/
def State.reportAnswer (a : XferAnswer) (s : State) : State :=
  match a with
  | .success => s.report .ok
  | .timeout => s.raiseFailure .xferTimeout
  | .error => s.raiseFailure .xferError

/-! ### Acceptance -/

/-- R71: an offered word that is not accepted waits on the command port, and nothing happens to it. -/
def State.holdOffer (w : CmdWord) (s : State) : State := s.setHost (.command w true :: s.host)

/-- R71: a command is performed when PHASE = IDLE; offered while the block is busy, its word waits (log 11). -/
def accept (w : CmdWord) (s : State) (perform : State → Answer) : Answer :=
  if s.busy then .next (s.holdOffer w) else perform s

end Sys2Proof.Machine
end

