-- ==== Sys2Proof/Machine/GainMapper.lean ====
section
/-! DEFINITION. The Gain Mapper and MAP (40_gain_mapper.md R100 to R112), in exact whole-number arithmetic: a finite
value is a number of units of 2^(-149), raw a number of units of 2^(-298). `rationalCode` of RationalMapper says the
same over the rationals, as R100 writes it. -/

namespace Sys2Proof.Machine

/-- How many units of 2^(-149) make 1. -/
def oneUnits : Int := 2 ^ 149

/-- How many units of 2^(-298) make 1. -/
def oneRaw : Int := oneUnits * oneUnits

/-- R101: raw = SLOPE · v + OFFSET, in units of 2^(-298). -/
def rawUnits (c : Config) (v : Int) : Int :=
  configUnits c.slope * v + configUnits c.offset * oneUnits

/-- R13: clamp. -/
def clampInt (q lo hi : Int) : Int := if q < lo then lo else if hi < q then hi else q

/-- R102: raw saturated to 0..255, in units of 2^(-298). -/
def saturatedUnits (c : Config) (v : Int) : Int := clampInt (rawUnits c v) 0 (255 * oneRaw)

/-- R103: rounded toward zero, once, at the end. -/
def finiteCode (c : Config) (v : Int) : Code := BitVec.ofInt 8 ((saturatedUnits c v).tdiv oneRaw)

/-- R105: an infinite operand saturates by the sign of SLOPE. -/
def infiniteCode (c : Config) (positive : Bool) : Code :=
  if decide (0 < configUnits c.slope) == positive then 255 else 0

/-- R100: `map(w)` under a configuration record. -/
def gainCode (c : Config) (w : Word32) : Code :=
  match dec32 w with
  | .nan => BitVec.ofNat 8 c.nanCode
  | .posInf => infiniteCode c true
  | .negInf => infiniteCode c false
  | .finite v => finiteCode c v

/-- R73: MAP_OUT = map(MAP_IN), "at all times, in every phase": derived, not stored. -/
def State.mapOut (s : State) : Code := gainCode s.cfg s.mapIn

/-- MAP (R100, R112): HOST drives MAP_IN with the operand and MAP_OUT answers it, in any phase; nothing of the block
is read but the configuration record, nothing of it is written, and no event is emitted. -/
def execMap (w : Word32) (s : State) : Answer := .next (s.driveMapIn w)

end Sys2Proof.Machine
end

