-- ==== Sys2Proof/Machine/Illegal.lean ====
section
/-! DEFINITION. The reserved opcodes (30_encoding.md R74, R87; 60_exceptions.md R193): one row, one meaning, all over
the one shared operation. -/

namespace Sys2Proof.Machine

/-- R193: no SetLevel, no Delay, no Transmit, no change of state; Done(ILLEGAL_CMD) is the only event. -/
def illegalCommand (op : BitVec 8) (a b : Word32) (s : State) : Answer :=
  accept (commandWord op a b) s fun s => .next (s.raiseFailure (.illegalCmd op))

/-- ILLEGAL_00 (R74). -/
def execIllegal00 (a b : Word32) (s : State) : Answer := illegalCommand 0x00 a b s

/-- ILLEGAL_04 (R74). -/
def execIllegal04 (op : BitVec 8) (a b : Word32) (s : State) : Answer := illegalCommand op a b s

/-- ILLEGAL_08 (R74). -/
def execIllegal08 (op : BitVec 8) (a b : Word32) (s : State) : Answer := illegalCommand op a b s

/-- ILLEGAL_10 (R74). -/
def execIllegal10 (op : BitVec 8) (a b : Word32) (s : State) : Answer := illegalCommand op a b s

/-- ILLEGAL_20 (R74). -/
def execIllegal20 (op : BitVec 8) (a b : Word32) (s : State) : Answer := illegalCommand op a b s

/-- ILLEGAL_40 (R74). -/
def execIllegal40 (op : BitVec 8) (a b : Word32) (s : State) : Answer := illegalCommand op a b s

/-- ILLEGAL_80 (R74). -/
def execIllegal80 (op : BitVec 8) (a b : Word32) (s : State) : Answer := illegalCommand op a b s

end Sys2Proof.Machine
end

