-- ==== Sys2Proof/Machine/MuteLine.lean ====
section
/-! DEFINITION. MUTE and UNMUTE (41_controller_init_mute.md R133 to R136). -/

namespace Sys2Proof.Machine

/-- R133, R134: one write of the mute line, then OK; PHASE stays IDLE. -/
def driveMuteLine (level : Level) (s : State) : Answer :=
  .next ((s.emitLevel .mute level).report .ok)

/-- MUTE (R133): A and B are ignored. -/
def execMute (a b : Word32) (s : State) : Answer :=
  accept (commandWord 0x01 a b) s fun s => driveMuteLine s.cfg.muteMutingLevel s

/-- UNMUTE (R134): A and B are ignored. -/
def execUnmute (a b : Word32) (s : State) : Answer :=
  accept (commandWord 0x02 a b) s fun s => driveMuteLine s.cfg.muteMutingLevel.inverse s

end Sys2Proof.Machine
end

