-- ==== Sys2Proof/Machine/Sequencer.lean ====
section
/-! DEFINITION. CTRL's steps after a SETGAIN has been accepted, one definition per rule (42_set_gain.md R152 to R156),
and the transition table of PHASE (R157). -/

namespace Sys2Proof.Machine

/-- R152, S_ASSERT → S_SETUP. -/
def stepAssert (s : State) : Answer :=
  .next ((s.emitLevel .cs s.cfg.csActiveLevel).setPhase .sSetup)

/-- R153, S_SETUP → S_XFER. -/
def stepSetup (s : State) : Answer :=
  .next ((s.emitDelay s.cfg.tSetupMs).setPhase .sXfer)

/-- R154, S_XFER → S_HOLD: one Transmit of PAY[0] then PAY[1]; RES latches SER's answer, whatever it is. -/
def stepXfer (s : State) : Answer :=
  orFault (memReadByte 0 s) fun b0 =>
    orFault (memReadByte 1 s) fun b1 =>
      .next (((s.emitTransmit b0 b1).setRes s.serAnswer).setPhase .sHold)

/-- R155, S_HOLD → S_RELEASE: on the failure path too. -/
def stepHold (s : State) : Answer :=
  .next ((s.emitDelay s.cfg.tHoldMs).setPhase .sRelease)

/-- R161: the codes become considered set on success, and have no value after a failure. -/
def settleGhost (a : XferAnswer) (s : State) (k : State → Answer) : Answer :=
  match a with
  | .success => readLatch s.lcode fun l => readLatch s.rcode fun r => k (s.setGhost (some l) (some r))
  | _ => k (s.setGhost none none)

/-- R156, S_RELEASE → IDLE: deassert, report, ghost codes, clear. The SetLevel comes before the Done on every path. -/
def stepRelease (s : State) : Answer :=
  readLatch s.res fun a =>
    settleGhost a ((s.emitLevel .cs s.cfg.csActiveLevel.inverse).reportAnswer a) fun s =>
      .next (s.clearLatches.setPhase .idle)

/-- R157: CTRL's step in each phase when it accepts no command. In IDLE nothing happens. -/
def advance (s : State) : Answer :=
  match s.phase with
  | .idle => .next s
  | .sAssert => stepAssert s
  | .sSetup => stepSetup s
  | .sXfer => stepXfer s
  | .sHold => stepHold s
  | .sRelease => stepRelease s

end Sys2Proof.Machine
end

