-- ==== Sys2Proof/Machine/SetGain.lean ====
section
/-! DEFINITION. SETGAIN: the step that accepts it (42_set_gain.md R151), which the sequencer's steps follow, and the
operation as a whole as R150 writes it. -/

namespace Sys2Proof.Machine

/-- R150 steps 1 and 2, R151: map both operands, latch the codes, and fill the payload, left code in PAY[0]. -/
def latchCodes (a b : Word32) (s : State) (k : State → Answer) : Answer :=
  let l := gainCode s.cfg a
  let r := gainCode s.cfg b
  orFault (memWriteByte 0 l (s.setCodes l r)) fun s =>
    orFault (memWriteByte 1 r s) k

/-- SETGAIN (R151): IDLE → S_ASSERT, no event. The five steps that follow are `advance`'s. -/
def execSetgain (a b : Word32) (s : State) : Answer :=
  accept (commandWord 0x03 a b) s fun s => latchCodes a b s fun s => .next (s.setPhase .sAssert)

/-- R150: the whole of an accepted SETGAIN in one piece, PHASE back at IDLE at its end. It is not what a step does; it
is what the six steps together are held against (R167: "Rule R150 and rules R151 to R156 both give this sequence"). -/
def setgainWhole (a b : Word32) (s : State) : Answer :=
  latchCodes a b s fun s =>
    orFault (memReadByte 0 s) fun b0 =>
      orFault (memReadByte 1 s) fun b1 =>
        let s := (s.emitLevel .cs s.cfg.csActiveLevel).emitDelay s.cfg.tSetupMs
        let a := s.serAnswer
        let s := ((s.emitTransmit b0 b1).setRes a).emitDelay s.cfg.tHoldMs
        let s := (s.emitLevel .cs s.cfg.csActiveLevel.inverse).reportAnswer a
        settleGhost a s fun s => .next s.clearLatches

end Sys2Proof.Machine
end

