-- ==== Sys2Proof/Machine/Dispatch.lean ====
section
/-! DEFINITION. One arm per instruction, each one call of its meaning. -/

namespace Sys2Proof.Machine

/-- The effect of an instruction that a port delivers to the block in a state. -/
def exec (i : Instr) (s : State) : Host.Outcome State Fault Refusal :=
  match i with
  | .map w => Sys2Proof.Machine.execMap w s
  | .mute a b => Sys2Proof.Machine.execMute a b s
  | .unmute a b => Sys2Proof.Machine.execUnmute a b s
  | .setgain a b => Sys2Proof.Machine.execSetgain a b s
  | .illegal00 a b => Sys2Proof.Machine.execIllegal00 a b s
  | .illegal04 op a b => Sys2Proof.Machine.execIllegal04 op a b s
  | .illegal08 op a b => Sys2Proof.Machine.execIllegal08 op a b s
  | .illegal10 op a b => Sys2Proof.Machine.execIllegal10 op a b s
  | .illegal20 op a b => Sys2Proof.Machine.execIllegal20 op a b s
  | .illegal40 op a b => Sys2Proof.Machine.execIllegal40 op a b s
  | .illegal80 op a b => Sys2Proof.Machine.execIllegal80 op a b s

end Sys2Proof.Machine
end

