-- ==== Sys2Proof/Machine/Fetch.lean ====
section
/-! DEFINITION. Which agent moves next, and with what (00_scope.md R8, 30_encoding.md R71, R73, 42_set_gain.md R157). -/

namespace Sys2Proof.Machine

/-- What the next step is: run the instruction a port delivers, from a state in which HOST has made its move, or let
the sequencer move. -/
inductive Fetched where
  | run (i : Instr) (s : State)
  | sequencer (s : State)
deriving DecidableEq, Repr

/-- HOST's next move decides. A MAP is answered in any phase (R73) and CTRL does not move meanwhile (log 10); a command
is accepted when CMD_READY (R71), otherwise CTRL goes on while the word waits or is withdrawn; with nothing offered CTRL
goes on. -/
def fetch (s : State) : Fetched :=
  match s.host with
  | [] => .sequencer s
  | .quiet :: rest => .sequencer (s.setHost rest)
  | .mapIn w :: rest => .run (decode (.mapPort w)) (s.setHost rest)
  | .command w keep :: rest =>
    if s.cmdReady then .run (decode (.commandPort w)) (s.setHost rest)
    else if keep then .sequencer s
    else .sequencer (s.setHost rest)

/-- HOST offers this port word next. The command port must be ready for a command to be taken up at once, so PHASE is
IDLE then; the map port is always ready (R71, R73). -/
def State.offer (p : PortWord) (s : State) : State :=
  match p with
  | .mapPort w => s.setHost (.mapIn w :: s.host)
  | .commandPort w => (s.setPhase .idle).setHost (.command w true :: s.host)

end Sys2Proof.Machine
end

