-- ==== Sys2Proof/Machine/Step.lean ====
section
/-! DEFINITION. One step of the machine: fetch, then run the instruction or let the sequencer move. -/

namespace Sys2Proof.Machine

/-- One step (42_set_gain.md R157 with HOST's moves, log 2). -/
def step (s : State) : Host.Outcome State Fault Refusal :=
  match fetch s with
  | .run i s' => exec i s'
  | .sequencer s' => advance s'

/-- The state in which the very next step takes up this table word (log 2); as it was, for a length that is no
format. -/
def State.withFetchWord (s : State) (nbits w : Nat) : State :=
  match portWordOfTable nbits w with
  | .ok p => s.offer p
  | .error _ => s

end Sys2Proof.Machine
end

