-- ==== Sys2Proof/Machine/Assembler.lean ====
section
/-! DEFINITION. The spec's mnemonic form (30_encoding.md R83, R84): which word a line stands for. -/

namespace Sys2Proof.Machine

/-- An operand as written (R83): a raw word, the three names, or a decimal literal ±digits/10^places. -/
inductive AsmOperand where
  | raw (w : Word32)
  | posInf
  | negInf
  | nan
  | decimal (neg : Bool) (digits places : Nat)
deriving DecidableEq, Repr

/-- R84: n/d rounded to the nearest whole number, ties to even. -/
def roundNearestEven (n d : Nat) : Nat :=
  if 2 * (n % d) < d then n / d
  else if 2 * (n % d) > d then n / d + 1
  else n / d + n / d % 2

/-- R84: the low 31 bits of the binary32 word of n/d. In units of 2^(-149) the value is n · 2^149 / d; k is how many of
its low bits a 24-bit significand cannot hold, and the rounded significand is added to k · 2^23, so that a carry out of
it, or its leading bit, moves the exponent up by one. Past the largest finite value the word is the infinity (PRESUMED,
log 14). -/
def literalMagnitude (n d : Nat) : Nat :=
  let k := Nat.log2 (n * 2 ^ 149 / d) - 23
  min 0x7F800000 (k * 2 ^ 23 + roundNearestEven (n * 2 ^ 149) (d * 2 ^ k))

/-- R84. -/
def AsmOperand.word : AsmOperand → Word32
  | .raw w => w
  | .posInf => 0x7F800000
  | .negInf => 0xFF800000
  | .nan => 0x7FC00000
  | .decimal neg digits places =>
    BitVec.ofBool neg ++ BitVec.ofNat 31 (literalMagnitude digits (10 ^ places))

/-- One line of the mnemonic form (R83). -/
inductive AsmLine where
  | map (x : AsmOperand)
  | mute
  | unmute
  | setgain (left right : AsmOperand)
  | word72 (w : CmdWord)
deriving DecidableEq, Repr

/-- R84: the port word of a line. -/
def assemble : AsmLine → PortWord
  | .map x => .mapPort x.word
  | .mute => .commandPort (commandWord 0x01 0 0)
  | .unmute => .commandPort (commandWord 0x02 0 0)
  | .setgain x y => .commandPort (commandWord 0x03 x.word y.word)
  | .word72 w => .commandPort w

end Sys2Proof.Machine
end

