-- ==== Sys2Proof/Machine/Ports.lean ====
section
/-! DEFINITION. The bit patterns of the block's output ports (30_encoding.md R71, R78, R79, R80): what each event looks
like on its port. -/

namespace Sys2Proof.Machine

/-- R78: DONE_RESULT[1:0]. -/
def Result.bits : Result → BitVec 2
  | .ok => 0
  | .xferTimeout => 1
  | .xferError => 2
  | .illegalCmd => 3

/-- R80: LINE_SEL, 0 = CS, 1 = MUTE. -/
def Line.bits : Line → BitVec 1
  | .cs => 0
  | .mute => 1

/-- R80: LINE_LEVEL, 0 = LOW, 1 = HIGH. -/
def levelBit : Level → BitVec 1
  | .low => 0
  | .high => 1

/-- R31, R79: an answer of SER in 2 bits, as TX_STATUS and as RES hold it. -/
def XferAnswer.bits : XferAnswer → BitVec 2
  | .success => 0
  | .timeout => 1
  | .error => 2

/-- One pulse on an output port: LINE_WR, DLY_REQ, TX_REQ or DONE_VALID, with the signals valid at it. -/
inductive Pulse where
  | lineWr (lineSel lineLevel : BitVec 1)
  | dlyReq (dlyMs : BitVec 16)
  | txReq (txData : BitVec 16) (txCount : BitVec 2) (txTimeoutMs : BitVec 16)
  | doneValid (doneResult : BitVec 2)
deriving DecidableEq, Repr

/-- R79, R80, R71: the pulse of an event. TX_DATA[7:0] is the byte sent first (R52). -/
def Event.pulse : Event → Pulse
  | .setLevel l v => .lineWr l.bits (levelBit v)
  | .delay ms => .dlyReq (BitVec.ofNat 16 ms)
  | .transmit b0 b1 count t _ => .txReq (b1 ++ b0) (BitVec.ofNat 2 count) (BitVec.ofNat 16 t)
  | .done r => .doneValid r.bits

/-- R7: the sequence of results reported to HOST, one per accepted command. -/
def State.results (s : State) : List Result :=
  s.events.filterMap fun e =>
    match e with
    | .done r => some r
    | _ => none

end Sys2Proof.Machine
end

