-- ==== Sys2Proof/Machine/RationalMapper.lean ====
section
/-! DEFINITION. The Gain Mapper over the rational numbers, letter for letter from 00_scope.md R13, 30_encoding.md R76
and 40_gain_mapper.md R100 to R105. It reads the operand word by itself and shares nothing with `gainCode`, so that the
two can be held against each other. -/

namespace Sys2Proof.Machine

/-- The classes of R76, a finite value an exact rational. -/
inductive DecodedQ where
  | nan
  | posInf
  | negInf
  | finite (v : ℚ)
deriving DecidableEq, Repr

/-- R76: `dec32` over Q. -/
def dec32Q (w : Word32) : DecodedQ :=
  let s := w.extractLsb' 31 1
  let e := (w.extractLsb' 23 8).toNat
  let m := (w.extractLsb' 0 23).toNat
  if e = 255 ∧ m ≠ 0 then .nan
  else if e = 255 then (if s = 0 then .posInf else .negInf)
  else
    let mag : ℚ := if e = 0 then m * (2 : ℚ) ^ (-149 : ℤ) else (2 ^ 23 + m) * (2 : ℚ) ^ ((e : ℤ) - 150)
    .finite (if s = 0 then mag else -mag)

/-- The exact rational value of a configuration word (R100: "SLOPE and OFFSET stand for the exact rational values of
the two configuration words"). -/
def configValue (w : Word32) : ℚ :=
  match dec32Q w with
  | .finite v => v
  | _ => 0

/-- R13: clamp and trunc. -/
def clampQ (q lo hi : ℚ) : ℚ := if q < lo then lo else if q > hi then hi else q
def truncQ (q : ℚ) : ℤ := if 0 ≤ q then ⌊q⌋ else -⌊-q⌋

/-- R101: raw. -/
def rawQ (c : Config) (v : ℚ) : ℚ := configValue c.slope * v + configValue c.offset

/-- R100: `map(w)` as an integer. -/
def rationalCode (c : Config) (w : Word32) : ℤ :=
  match dec32Q w with
  | .nan => c.nanCode
  | .posInf => if configValue c.slope > 0 then 255 else 0
  | .negInf => if configValue c.slope > 0 then 0 else 255
  | .finite v => truncQ (clampQ (rawQ c v) 0 255)

/-- R109: the non-NaN operands "ordered as extended reals (−∞ lowest, +∞ highest, the two zeros equal)". No NaN
stands in the order. -/
def DecodedQ.atMost : DecodedQ → DecodedQ → Prop
  | .nan, _ => False
  | _, .nan => False
  | .negInf, _ => True
  | _, .posInf => True
  | .finite x, .finite y => x ≤ y
  | _, _ => False

end Sys2Proof.Machine
end

