-- ==== Sys2Proof/Machine/Init.lean ====
section
/-! DEFINITION. INIT, the construction of the controller, which in hardware is reset (41_controller_init_mute.md R130
to R132, 70_reset_and_hazards.md R220, R221), and which configuration records it refuses (10_state.md R21 to R25). -/

namespace Sys2Proof.Machine

/-- R21, R22: a finite word is neither an infinity nor a NaN. -/
def isFinite (w : Word32) : Bool :=
  match dec32 w with
  | .finite _ => true
  | _ => false

/-- A legal record: SLOPE finite and not zero (R21), OFFSET finite (R22), both delays and the timeout not 0 (R23 to
R25), NAN_CODE 0 to 255 (R104); both levels are legal on both lines (R26, R27). -/
def legalConfig (c : Config) : Bool :=
  isFinite c.slope && decide (configUnits c.slope ≠ 0) && isFinite c.offset
    && decide (c.tSetupMs ≠ 0) && decide (c.tHoldMs ≠ 0) && decide (c.timeoutMs ≠ 0)
    && decide (c.nanCode ≤ 255)

/-- INIT (R130): an illegal record "is refused before the machine exists"; a legal one gives the state of R36, with no
event emitted (R131). -/
def construct (c : Config) : Answer :=
  if legalConfig c then .next (State.init c) else .refused .illegalConfig

/-- What a later reset leaves (R220, R221): a new run in the reset state, "and that the chip-select line keeps the
level last written, which may be the active one"; the mute line likewise keeps its level, since reset drives nothing.
It is no step of a run (93_implementation_defined.md U7; log 9). DESIGN CHOICE (log 9): the spec does not say which record
a later reset constructs with, INIT takes one (R130) and R20 fixes it for a run only, and the model keeps the old one;
nor does it say what a later reset does to the block's surroundings, and HOST's and SER's coming moves, the count of
free replies, MAP_IN and the bits already on the wire stay as they are. -/
def State.afterReset (s : State) : State :=
  { State.init s.cfg with
    csLevel := s.csLevel, muteLevel := s.muteLevel, wire := s.wire, mapIn := s.mapIn
    host := s.host, ser := s.ser, draws := s.draws }

end Sys2Proof.Machine
end

