-- ==== Sys2Proof/Safety.lean ====
section
/-! DEFINITION. What counts as a good state and a good run of SmartPA-GMS: the invariant of the machine (10_state.md
R30, R31, 42_set_gain.md R159), and the protocol every event sequence follows (42_set_gain.md R157, R159, R167). -/

namespace Sys2Proof.Machine

/-- `n` steps of the machine, stopping at the first fault or refusal. -/
def steps : Nat → State → Answer
  | 0, s => .next s
  | n + 1, s =>
    match step s with
    | .next u => steps n u
    | .fault f => .fault f
    | .refused r => .refused r

/-- LCODE, RCODE and PAY hold the two codes of the SETGAIN in progress (R31, R151). -/
def State.codesLatched (s : State) : Prop :=
  ∃ l r : Code, s.lcode = some l ∧ s.rcode = some r ∧ s.pay = [(0, l), (1, r)]

/-- R31: which latches hold a value in which phase: none in IDLE, the codes and the payload from S_ASSERT on, RES from
S_HOLD on. -/
def State.latchesFit (s : State) : Prop :=
  match s.phase with
  | .idle => s.lcode = none ∧ s.rcode = none ∧ s.pay = [] ∧ s.res = none
  | .sAssert | .sSetup | .sXfer => s.codesLatched ∧ s.res = none
  | .sHold | .sRelease => s.codesLatched ∧ ∃ a, s.res = some a

/-- R159: chip-select is active exactly from the step out of S_ASSERT to the step out of S_RELEASE. -/
def State.chipSelectFits (s : State) : Prop :=
  match s.phase with
  | .idle | .sAssert => s.csLevel ≠ some s.cfg.csActiveLevel
  | .sSetup | .sXfer | .sHold | .sRelease => s.csLevel = some s.cfg.csActiveLevel

/-- R160, R161: both channels are considered set, or neither. -/
def State.ghostPaired (s : State) : Prop := s.setL.isSome = s.setR.isSome

/-- The invariant of the machine: a legal record, the payload in its canonical form, the latches and chip-select as
the phase says, the ghost codes together. -/
def State.Inv (s : State) : Prop :=
  legalConfig s.cfg = true ∧ Payload.wf s.pay = true ∧ s.latchesFit ∧ s.chipSelectFits ∧ s.ghostPaired

/-! ### The protocol of a run -/

/-- How far the events of the command in progress have come. -/
inductive Progress where
  /-- Between two commands. -/
  | rest
  /-- A MUTE or an UNMUTE has written the mute line. -/
  | muteWritten
  /-- Chip-select is asserted. -/
  | selected
  /-- The leading delay is over. -/
  | settled
  /-- SER has answered. -/
  | sent (a : XferAnswer)
  /-- The trailing delay is over. -/
  | held (a : XferAnswer)
  /-- Chip-select is deasserted. -/
  | released (a : XferAnswer)
deriving DecidableEq, Repr

/-- R158: the Result that reports an answer. -/
def answerResult : XferAnswer → Result
  | .success => .ok
  | .timeout => .xferTimeout
  | .error => .xferError

/-- The one event that may come next, by R133, R134, R74 and R167. -/
def protocolStep (c : Config) (p : Progress) (e : Event) : Option Progress :=
  match p, e with
  | .rest, .setLevel .mute _ => some .muteWritten
  | .rest, .setLevel .cs v => if v = c.csActiveLevel then some .selected else none
  | .rest, .done r => if r = .illegalCmd then some .rest else none
  | .muteWritten, .done r => if r = .ok then some .rest else none
  | .selected, .delay ms => if ms = c.tSetupMs.toNat then some .settled else none
  | .settled, .transmit _ _ n t a => if n = 2 ∧ t = c.timeoutMs.toNat then some (.sent a) else none
  | .sent a, .delay ms => if ms = c.tHoldMs.toNat then some (.held a) else none
  | .held a, .setLevel .cs v => if v = c.csActiveLevel.inverse then some (.released a) else none
  | .released a, .done r => if r = answerResult a then some .rest else none
  | _, _ => none

/-- Where a whole event sequence ends, or nothing if it breaks the protocol. -/
def protocolRun (c : Config) (es : List Event) : Option Progress :=
  es.foldl (fun p e => p.bind fun q => protocolStep c q e) (some .rest)

/-- How far the events are when PHASE and RES are these. -/
def progressAt (p : Phase) (res : Option XferAnswer) : Option Progress :=
  match p, res with
  | .idle, _ => some .rest
  | .sAssert, _ => some .rest
  | .sSetup, _ => some .selected
  | .sXfer, _ => some .settled
  | .sHold, some a => some (.sent a)
  | .sRelease, some a => some (.held a)
  | _, none => none

/-- The events of the run so far follow the protocol, and PHASE stands where they do. -/
def State.followsProtocol (s : State) : Prop :=
  protocolRun s.cfg s.events = progressAt s.phase s.res ∧ (protocolRun s.cfg s.events).isSome

/-- R34: "after SetLevel(l, v) the level of line l is v", and nothing else changes a level: the level the last
SetLevel on a line wrote, if there is one. -/
def lastLevel (l : Line) (es : List Event) : Option Level :=
  es.foldl (fun cur e => match e with
    | .setLevel l' v => if l' = l then some v else cur
    | _ => cur) none

/-- R34: the two line levels are what the events of the run say. -/
def State.linesFollowEvents (s : State) : Prop :=
  s.csLevel = lastLevel .cs s.events ∧ s.muteLevel = lastLevel .mute s.events

/-- Everything a run keeps: the invariant, the protocol, and the lines. -/
def State.GoodRun (s : State) : Prop := s.Inv ∧ s.followsProtocol ∧ s.linesFollowEvents

/-! ### What two states share -/

/-- What the spec gives the block and its surroundings, without the configuration, HOST's and SER's coming moves and
the history (R29: "after a command completes, no piece of the block's state depends on the operands of that command"). -/
def State.blockState (s : State) : Phase × Option Code × Option Code × List Host.Cell × Option XferAnswer :=
  (s.phase, s.lcode, s.rcode, s.pay, s.res)

/-- HOST's next word waits on the command port or HOST is silent: no MAP and no pause stands before it. -/
def State.hostKeepsOffer (s : State) : Prop :=
  s.host = [] ∨ ∃ w rest, s.host = .command w true :: rest

/-- The Transmit events of an event sequence (R163). -/
def transmits (es : List Event) : List Event :=
  es.filter fun e => match e with | .transmit .. => true | _ => false

end Sys2Proof.Machine
end

