-- ==== Sys2Proof/Certificates/Slice0/Obligations.lean ====
section
/-! DEFINITION. The statements for the provers. Each docstring names the rule of `spec/` it rests on. -/

open Sys2Proof Sys2Proof.Machine

/-! ### Encoding -/

/-- Words of 95_test_vectors.md, written out by the spec's own layout (R71, R72, R73, R84), one or more per family. -/
def Obligations.SpecVectorWordsDecodeToTheirInstructions : Prop :=
  decodeTableWord 32 0x42480000 = some (.map 0x42480000) ∧
  decodeTableWord 72 0x010000000000000000 = some (.mute 0 0) ∧
  decodeTableWord 72 0x01FFFFFFFFFFFFFFFF = some (.mute 0xFFFFFFFF 0xFFFFFFFF) ∧
  decodeTableWord 72 0x020000000000000000 = some (.unmute 0 0) ∧
  decodeTableWord 72 0x0342480000C2C80000 = some (.setgain 0x42480000 0xC2C80000) ∧
  decodeTableWord 72 0x000000000000000000 = some (.illegal00 0 0) ∧
  decodeTableWord 72 0x040000000000000000 = some (.illegal04 0x04 0 0) ∧
  decodeTableWord 72 0x7F42480000C2C80000 = some (.illegal40 0x7F 0x42480000 0xC2C80000) ∧
  decodeTableWord 72 0xFFFFFFFFFFFFFFFFFF = some (.illegal80 0xFF 0xFFFFFFFF 0xFFFFFFFF)

/-- R81: no bit of an instruction is lost between its word and its decoding. -/
def Obligations.EncodedInstructionsDecodeBack : Prop :=
  ∀ i : Instr, i.wellFormed = true →
    decode (encode i) = i ∧ decodeTableWord (encode i).nbits (encode i).value = some i

/-- R81: every word of either port is read, as a well-formed instruction, and no two words are read alike. -/
def Obligations.EveryPortWordIsTheEncodingOfWhatItDecodesTo : Prop :=
  ∀ p : PortWord, (decode p).wellFormed = true ∧ encode (decode p) = p

/-- R87: "every 72-bit word matches exactly one format C row, and a decoder can be written from the table alone". -/
def Obligations.EveryCommandWordMatchesExactlyItsRow : Prop :=
  ∀ w : CmdWord, (commandRows.filter fun r => r.matchesWord w).map OpRow.mnemonic = [(decodeCommand w).mnemonic]

/-- R84: a decimal literal whose value is some word's value under R76 denotes a word of exactly that value, and the
sign written before it. -/
def Obligations.ExactLiteralsAssembleToTheirValue : Prop :=
  ∀ (neg : Bool) (digits places : Nat) (w : Word32), dec32Q w = .finite ((digits : ℚ) / 10 ^ places) →
    dec32Q (AsmOperand.decimal neg digits places).word =
      .finite (if neg then -((digits : ℚ) / 10 ^ places) else (digits : ℚ) / 10 ^ places)

/-! ### Stepping -/

/-- The model's step: HOST's head move is consumed and the decoded instruction is run; what `step` adds around `exec`
is the shorter list of HOST's moves. The words and their ports are those of R71, R73 and R81. That HOST is a list whose
head move a step consumes is the model's choice (log 2), and so is it that a MAP takes a step of its own, in every phase,
while the sequencer stands still (log 10; R235: "MAP has no steps"). -/
def Obligations.StepRunsTheDecodedInstruction : Prop :=
  ∀ (i : Instr) (s : State) (rest : List HostMove), i.wellFormed = true →
    (∀ w, encode i = .mapPort w → s.host = .mapIn w :: rest → step s = exec i { s with host := rest }) ∧
    (∀ w keep, encode i = .commandPort w → s.host = .command w keep :: rest → s.phase = .idle →
      step s = exec i { s with host := rest })

/-- `withFetchWord` makes the next step run the table's word, in any state; a command needs PHASE = IDLE for that. Both
are the model's choice (log 2; for the step a MAP takes, log 10). -/
def Obligations.PlacedTableWordRunsNext : Prop :=
  ∀ (s : State) (nbits w : Nat) (i : Instr), decodeTableWord nbits w = some i →
    (nbits = 32 ∧ step (s.withFetchWord nbits w) = exec i s) ∨
      (nbits = 72 ∧ step (s.withFetchWord nbits w) = exec i { s with phase := .idle })

/-- R71, R157: when no instruction is taken up, CTRL moves: nothing offered, or a word that waits or is withdrawn. The
list of HOST's moves is the model's choice (log 2). -/
def Obligations.SequencerMovesWhenNothingIsAccepted : Prop :=
  ∀ (s : State) (rest : List HostMove),
    (s.host = [] → step s = advance s) ∧
    (s.host = .quiet :: rest → step s = advance { s with host := rest }) ∧
    (∀ w, s.host = .command w true :: rest → s.phase ≠ .idle → step s = advance s) ∧
    (∀ w, s.host = .command w false :: rest → s.phase ≠ .idle → step s = advance { s with host := rest })

/-- R71: "nothing happens to a word offered while CMD_READY is false, it simply waits". That a command handed to
`exec` in a busy phase waits at the head of HOST's moves is the model's choice (log 11). -/
def Obligations.CommandsWaitWhileTheBlockIsBusy : Prop :=
  ∀ (i : Instr) (w : CmdWord) (s : State), i.wellFormed = true → encode i = .commandPort w → s.phase ≠ .idle →
    exec i s = .next { s with host := .command w true :: s.host }

/-! ### What each instruction does -/

/-- MAP completes in every state, in every phase: HOST's word stands on MAP_IN, MAP_OUT answers the Gain Mapper's code
of it, and nothing else changes, no event among it (R73, R112). That HOST's drive of MAP_IN is the instruction's one
write is the model's choice (log 4). -/
def Obligations.MapAnswersInEveryPhase : Prop :=
  ∀ (w : Word32) (s : State), ∃ t, exec (.map w) s = .next t ∧ t = { s with mapIn := w } ∧
    t.mapOut = gainCode s.cfg w

/-- R133: MUTE, with its encoding, its acceptance in IDLE, its two events, its result, and its frame. -/
def Obligations.MuteWritesTheMutingLevelAndReportsOk : Prop :=
  (∀ w : CmdWord, cmdOp w = 0x01 → decode (.commandPort w) = .mute (cmdA w) (cmdB w)) ∧
  ∀ (a b : Word32) (s : State), s.phase = .idle →
    ∃ t, exec (.mute a b) s = .next t ∧ t.busy = false ∧
      t = { s with
        muteLevel := some s.cfg.muteMutingLevel
        events := s.events ++ [.setLevel .mute s.cfg.muteMutingLevel, .done .ok] }

/-- R134: UNMUTE, likewise. -/
def Obligations.UnmuteWritesThePassthroughLevelAndReportsOk : Prop :=
  (∀ w : CmdWord, cmdOp w = 0x02 → decode (.commandPort w) = .unmute (cmdA w) (cmdB w)) ∧
  ∀ (a b : Word32) (s : State), s.phase = .idle →
    ∃ t, exec (.unmute a b) s = .next t ∧ t.busy = false ∧
      t = { s with
        muteLevel := some s.cfg.muteMutingLevel.inverse
        events := s.events ++ [.setLevel .mute s.cfg.muteMutingLevel.inverse, .done .ok] }

/-- R151: the step that accepts a SETGAIN, with its encoding, from every idle state whose payload is in its canonical
form. -/
def Obligations.SetgainLatchesBothCodesAndStartsTheSequence : Prop :=
  (∀ w : CmdWord, cmdOp w = 0x03 → decode (.commandPort w) = .setgain (cmdA w) (cmdB w)) ∧
  ∀ (a b : Word32) (s : State), s.phase = .idle → Payload.wf s.pay = true →
    ∃ t, exec (.setgain a b) s = .next t ∧ t.busy = true ∧ t.cmdReady = false ∧
      t = { s with
        lcode := some (gainCode s.cfg a), rcode := some (gainCode s.cfg b)
        pay := [(0, gainCode s.cfg a), (1, gainCode s.cfg b)], phase := .sAssert }

/-- R74: each of the seven reserved rows, by its constructor: Done(ILLEGAL_CMD) is the only thing that happens. -/
def Obligations.EveryReservedRowReportsIllegalCommandOnly : Prop :=
  ∀ (op : BitVec 8) (a b : Word32) (s : State), s.phase = .idle →
    exec (.illegal00 a b) s = .next { s with events := s.events ++ [.done .illegalCmd] } ∧
    exec (.illegal04 op a b) s = .next { s with events := s.events ++ [.done .illegalCmd] } ∧
    exec (.illegal08 op a b) s = .next { s with events := s.events ++ [.done .illegalCmd] } ∧
    exec (.illegal10 op a b) s = .next { s with events := s.events ++ [.done .illegalCmd] } ∧
    exec (.illegal20 op a b) s = .next { s with events := s.events ++ [.done .illegalCmd] } ∧
    exec (.illegal40 op a b) s = .next { s with events := s.events ++ [.done .illegalCmd] } ∧
    exec (.illegal80 op a b) s = .next { s with events := s.events ++ [.done .illegalCmd] }

/-- R193: an accepted word whose OP is not 0x01, 0x02 or 0x03, whatever its operand fields, emits Done(ILLEGAL_CMD) and
changes nothing; OP is recorded nowhere. -/
def Obligations.AcceptedReservedOpcodeIsAnIllegalCommand : Prop :=
  ∀ (w : CmdWord) (s : State), cmdOp w ≠ 0x01 → cmdOp w ≠ 0x02 → cmdOp w ≠ 0x03 → s.phase = .idle →
    exec (decode (.commandPort w)) s = .next { s with events := s.events ++ [.done .illegalCmd] }

/-- R190: a failure leaves its Result and nothing else; the codes are those of R78. -/
def Obligations.RaisingAFailureRecordsOnlyItsResult : Prop :=
  (∀ (f : Failure) (s : State), s.raiseFailure f = { s with events := s.events ++ [.done f.result] }) ∧
  Failure.xferTimeout.result.bits = 1 ∧ Failure.xferError.result.bits = 2 ∧
  (∀ op, (Failure.illegalCmd op).result.bits = 3) ∧ Result.ok.bits = 0

/-! ### The sequencer -/

/-- R152. -/
def Obligations.AssertStepSelectsTheChip : Prop :=
  ∀ s : State, s.phase = .sAssert →
    advance s = .next { s with
      csLevel := some s.cfg.csActiveLevel
      events := s.events ++ [.setLevel .cs s.cfg.csActiveLevel], phase := .sSetup }

/-- R153, R155: the two settling delays, the trailing one whatever RES holds. -/
def Obligations.DelayStepsEmitTheirOwnDelay : Prop :=
  ∀ s : State,
    (s.phase = .sSetup →
      advance s = .next { s with events := s.events ++ [.delay s.cfg.tSetupMs.toNat], phase := .sXfer }) ∧
    (s.phase = .sHold →
      advance s = .next { s with events := s.events ++ [.delay s.cfg.tHoldMs.toNat], phase := .sRelease })

/-- R154: one Transmit of the two payload bytes, left first; RES latches the answer, whatever it is, and PHASE goes on.
On the data line SER puts all 16 bits, or a prefix of them after a failure (R53, R165); the model's own reply list and
counter move on (log 3). -/
def Obligations.TransferStepSendsThePayloadAndLatchesTheAnswer : Prop :=
  ∀ (s : State) (b0 b1 : Code), s.phase = .sXfer → Payload.lookup s.pay 0 = some b0 → Payload.lookup s.pay 1 = some b1 →
    ∃ bits, bits <+: byteBits b0 ++ byteBits b1 ∧ (s.serAnswer = .success → bits = byteBits b0 ++ byteBits b1) ∧
      advance s = .next { s with
        events := s.events ++ [.transmit b0 b1 2 s.cfg.timeoutMs.toNat s.serAnswer]
        wire := s.wire ++ bits, res := some s.serAnswer, phase := .sHold
        ser := s.ser.tail, draws := if s.ser = [] then s.draws + 1 else s.draws }

/-- R156, R161: deassert, report, ghost codes, clear, for each of the three answers. -/
def Obligations.ReleaseStepDeselectsReportsAndClears : Prop :=
  ∀ (s : State) (a : XferAnswer) (l r : Code), s.phase = .sRelease → s.res = some a → s.lcode = some l →
    s.rcode = some r →
    advance s = .next { s with
      csLevel := some s.cfg.csActiveLevel.inverse
      events := s.events ++ [.setLevel .cs s.cfg.csActiveLevel.inverse, .done (answerResult a)]
      setL := if a = .success then some l else none, setR := if a = .success then some r else none
      lcode := none, rcode := none, pay := [], res := none, phase := .idle }

/-- R164, R79: the three answers and the reserved status; a scripted status is the answer the Transmit gets. -/
def Obligations.SerStatusIsReadAsItsAnswer : Prop :=
  readStatus 0 = .success ∧ readStatus 1 = .timeout ∧ readStatus 2 = .error ∧ readStatus 3 = .error ∧
  ∀ (s : State) (r : SerReply) (rest : List SerReply), s.ser = r :: rest → s.serAnswer = readStatus r.status

/-! ### A whole SETGAIN -/

/-- R167: the six events of an accepted SETGAIN, for every record, operand and answer, and the block back where it was;
the operation as one rule (R150) gives the same events.
The premise that HOST does nothing else at those six moments, and the count of six steps, are the model's own (logs 2
and 10); the invariant rules out states no run reaches. -/
def Obligations.SetgainEmitsExactlyItsSixEvents : Prop :=
  ∀ (s : State) (a b : Word32) (keep : Bool) (rest : List HostMove),
    s.Inv → s.phase = .idle → s.host = .command (commandWord 0x03 a b) keep :: rest →
    State.hostKeepsOffer { s with host := rest } →
    ∃ t, steps 6 s = .next t ∧ t.host = rest ∧ t.blockState = s.blockState ∧
      t.events = s.events ++
        [ .setLevel .cs s.cfg.csActiveLevel,
          .delay s.cfg.tSetupMs.toNat,
          .transmit (gainCode s.cfg a) (gainCode s.cfg b) 2 s.cfg.timeoutMs.toNat s.serAnswer,
          .delay s.cfg.tHoldMs.toNat,
          .setLevel .cs s.cfg.csActiveLevel.inverse,
          .done (answerResult s.serAnswer) ] ∧
      ∃ u, setgainWhole a b { s with host := rest } = .next u ∧ u.events = t.events

/-- R150 against R151 to R156: the six steps end in the very state the whole operation gives. The premise on HOST is the
model's own (logs 2 and 10), here and in the statements about six steps below. -/
def Obligations.SixStepsRefineTheWholeSetgain : Prop :=
  ∀ (s : State) (a b : Word32) (keep : Bool) (rest : List HostMove),
    s.Inv → s.phase = .idle → s.host = .command (commandWord 0x03 a b) keep :: rest →
    State.hostKeepsOffer { s with host := rest } →
    ∃ t, steps 6 s = .next t ∧ setgainWhole a b { s with host := rest } = .next t

/-- R158, R161, R199: after the six steps chip-select is released whatever SER answered, and the ghost codes are the two
codes on success and nothing after a failure. -/
def Obligations.EveryAnswerEndsWithTheChipReleased : Prop :=
  ∀ (s : State) (a b : Word32) (keep : Bool) (rest : List HostMove),
    s.Inv → s.phase = .idle → s.host = .command (commandWord 0x03 a b) keep :: rest →
    State.hostKeepsOffer { s with host := rest } →
    ∃ t, steps 6 s = .next t ∧ t.csLevel = some s.cfg.csActiveLevel.inverse ∧ t.muteLevel = s.muteLevel ∧
      (s.serAnswer = .success → t.setL = some (gainCode s.cfg a) ∧ t.setR = some (gainCode s.cfg b)) ∧
      (s.serAnswer ≠ .success → t.setL = none ∧ t.setR = none)

/-- R29: "after a command completes, no piece of the block's state depends on the operands of that command". Two
SETGAINs from one state, with any two pairs of operands, leave the same block, lines, configuration and environment. -/
def Obligations.OperandsLeaveNoTraceInTheBlock : Prop :=
  ∀ (s : State) (a b a' b' : Word32) (rest : List HostMove),
    s.Inv → s.phase = .idle → State.hostKeepsOffer { s with host := rest } →
    ∃ t t', steps 6 { s with host := .command (commandWord 0x03 a b) true :: rest } = .next t ∧
      steps 6 { s with host := .command (commandWord 0x03 a' b') true :: rest } = .next t' ∧
      t' = { t with events := t'.events, wire := t'.wire, setL := t'.setL, setR := t'.setR }

/-- R163: the bytes of a SETGAIN "depend on A, B and the configuration record only; not on earlier commands, not on the
mute line, not on earlier failures": from any two idle states under one record the one Transmit carries the same
bytes. -/
def Obligations.TransmittedBytesDependOnOperandsAndRecordOnly : Prop :=
  ∀ (s s' : State) (a b : Word32) (rest rest' : List HostMove),
    s.Inv → s'.Inv → s.phase = .idle → s'.phase = .idle → s'.cfg = s.cfg →
    State.hostKeepsOffer { s with host := rest } → State.hostKeepsOffer { s' with host := rest' } →
    ∃ t t' b0 b1 x x',
      steps 6 { s with host := .command (commandWord 0x03 a b) true :: rest } = .next t ∧
      steps 6 { s' with host := .command (commandWord 0x03 a b) true :: rest' } = .next t' ∧
      transmits t.events = transmits s.events ++ [.transmit b0 b1 2 s.cfg.timeoutMs.toNat x] ∧
      transmits t'.events = transmits s'.events ++ [.transmit b0 b1 2 s.cfg.timeoutMs.toNat x']

/-- R168 (5): "A only ever influences the first byte and B only the second". -/
def Obligations.EachOperandReachesItsOwnByteOnly : Prop :=
  ∀ (s : State) (a b a' b' : Word32) (rest : List HostMove),
    s.Inv → s.phase = .idle → State.hostKeepsOffer { s with host := rest } →
    ∃ t ta tb b0 b1 b0' b1' x,
      steps 6 { s with host := .command (commandWord 0x03 a b) true :: rest } = .next t ∧
      steps 6 { s with host := .command (commandWord 0x03 a' b) true :: rest } = .next ta ∧
      steps 6 { s with host := .command (commandWord 0x03 a b') true :: rest } = .next tb ∧
      transmits t.events = transmits s.events ++ [.transmit b0 b1 2 s.cfg.timeoutMs.toNat x] ∧
      transmits ta.events = transmits s.events ++ [.transmit b0' b1 2 s.cfg.timeoutMs.toNat x] ∧
      transmits tb.events = transmits s.events ++ [.transmit b0 b1' 2 s.cfg.timeoutMs.toNat x]

/-- R7, R71: every accepted command reports exactly one result: a SETGAIN at the last of its six steps, every other
command in the step that accepts it. -/
def Obligations.EveryAcceptedCommandReportsOneResult : Prop :=
  (∀ (s : State) (a b : Word32) (rest : List HostMove), s.Inv → s.phase = .idle →
    State.hostKeepsOffer { s with host := rest } →
    ∃ t, steps 6 { s with host := .command (commandWord 0x03 a b) true :: rest } = .next t ∧
      t.results = s.results ++ [answerResult s.serAnswer]) ∧
  (∀ (s : State) (w : CmdWord) (keep : Bool) (rest : List HostMove), s.phase = .idle → cmdOp w ≠ 0x03 →
    ∃ t, step { s with host := .command w keep :: rest } = .next t ∧
      t.results = s.results ++ [if cmdOp w = 0x01 ∨ cmdOp w = 0x02 then .ok else .illegalCmd])

/-- R136 (3): "a MUTE offered while a SETGAIN is in progress waits until the Done of that SETGAIN and is then
performed", in whichever busy phase it is first offered. PHASE counts the five steps from 1 to 5 (R30), so of the six
events of R167 those from number PHASE on are still to come; after SER has answered, RES holds the answer. HOST's kept
offer is a move of the model's list (log 2). -/
def Obligations.MuteOfferedDuringASetgainWaitsForItsDone : Prop :=
  ∀ (s : State) (a b : Word32) (rest : List HostMove),
    s.Inv → s.phase ≠ .idle → s.host = .command (commandWord 0x01 a b) true :: rest →
    ∃ t b0 b1, s.pay = [(0, b0), (1, b1)] ∧ steps (7 - s.phase.bits.toNat) s = .next t ∧ t.phase = .idle ∧
      t.host = rest ∧
      t.events = s.events ++
        [ .setLevel .cs s.cfg.csActiveLevel,
          .delay s.cfg.tSetupMs.toNat,
          .transmit b0 b1 2 s.cfg.timeoutMs.toNat s.serAnswer,
          .delay s.cfg.tHoldMs.toNat,
          .setLevel .cs s.cfg.csActiveLevel.inverse,
          .done (answerResult (s.res.getD s.serAnswer)) ].drop (s.phase.bits.toNat - 1) ++
        [ .setLevel .mute s.cfg.muteMutingLevel, .done .ok ]

/-- R235: "Every operation ends": from every good state whose HOST does nothing but keep an offer, the block is idle
within five steps. SER and DLY always returning is built in (logs 3 and 8). -/
def Obligations.EverySequenceEndsWithinFiveSteps : Prop :=
  ∀ s : State, s.Inv → s.hostKeepsOffer → ∃ n t, n ≤ 5 ∧ steps n s = .next t ∧ t.phase = .idle

/-! ### What every step keeps -/

/-- Reset and every legal construction meet the invariant, the protocol and the line levels. -/
def Obligations.ConstructionGivesAGoodRun : Prop :=
  State.reset.GoodRun ∧ ∀ c : Config, legalConfig c = true → ∃ t, construct c = .next t ∧ t.GoodRun

/-- The invariant is inductive over all steps from all states that meet it. -/
def Obligations.EveryStepKeepsTheInvariant : Prop :=
  ∀ s t : State, s.Inv → step s = .next t → t.Inv

/-- No step from a state that meets the invariant ends in a fault or a refusal (R10: reading ⊥ "is never done"). -/
def Obligations.NoStepFromAGoodStateStops : Prop :=
  ∀ s : State, s.Inv → ∃ t, step s = .next t

/-- R157, R159, R167, R34: the events of a run follow the protocol, with PHASE standing where they do, and the line
levels are what the last SetLevel events wrote; every step keeps this. -/
def Obligations.EveryStepKeepsTheProtocol : Prop :=
  ∀ s t : State, s.GoodRun → step s = .next t → t.GoodRun

/-- For every legal record, every behaviour of HOST and every answer of SER, a run of any length goes
through without a stop, and its whole event sequence follows the protocol. -/
def Obligations.EveryRunOfEveryLegalRecordFollowsTheProtocol : Prop :=
  ∀ (c : Config) (moves : List HostMove) (replies : List SerReply) (n : Nat), legalConfig c = true →
    ∃ t, steps n { State.init c with host := moves, ser := replies } = .next t ∧ t.GoodRun

/-- R236: "the last SetLevel on CS, if there is one, wrote the inactive level" whenever the block is at rest: after every
step that ends in IDLE from a good run, and at the end of every run of every legal record. -/
def Obligations.ChipSelectIsReleasedAtRest : Prop :=
  (∀ s t : State, s.GoodRun → step s = .next t → t.phase = .idle →
    lastLevel .cs t.events = none ∨ lastLevel .cs t.events = some t.cfg.csActiveLevel.inverse) ∧
  ∀ (c : Config) (moves : List HostMove) (replies : List SerReply) (n : Nat) (t : State), legalConfig c = true →
    steps n { State.init c with host := moves, ser := replies } = .next t → t.phase = .idle →
    lastLevel .cs t.events = none ∨ lastLevel .cs t.events = some c.csActiveLevel.inverse

/-- R228: "no run has a Delay(0)", and every delay is a number the delay port can carry (R80): every step keeps this, from
any state that meets the invariant, and so every run of every legal record has it. -/
def Obligations.NoRunHasAZeroDelay : Prop :=
  (∀ s t : State, s.Inv → (∀ ms, .delay ms ∈ s.events → 0 < ms ∧ ms < 2 ^ 16) → step s = .next t →
    ∀ ms, .delay ms ∈ t.events → 0 < ms ∧ ms < 2 ^ 16) ∧
  ∀ (c : Config) (moves : List HostMove) (replies : List SerReply) (n : Nat) (t : State), legalConfig c = true →
    steps n { State.init c with host := moves, ser := replies } = .next t →
    ∀ ms, .delay ms ∈ t.events → 0 < ms ∧ ms < 2 ^ 16

/-- R20: the record is "the same in every state of a run". -/
def Obligations.NoStepChangesTheConfiguration : Prop :=
  ∀ s t : State, step s = .next t → t.cfg = s.cfg

/-- R7, R60: an emitted event is never taken back or reordered; a step only appends, at most two events. -/
def Obligations.EveryStepOnlyAppendsEvents : Prop :=
  ∀ s t : State, step s = .next t → ∃ es, t.events = s.events ++ es ∧ es.length ≤ 2

/-- R161: the ghost codes change at the step S_RELEASE → IDLE only; "before that step they keep their previous values". -/
def Obligations.GhostCodesChangeOnlyAtRelease : Prop :=
  ∀ s t : State, step s = .next t → (s.phase ≠ .sRelease ∨ t.phase ≠ .idle) → t.setL = s.setL ∧ t.setR = s.setR

/-- R166: no step of a SETGAIN, accepted or in progress, writes the mute line, on any path. -/
def Obligations.SetgainLeavesTheMuteLineAlone : Prop :=
  (∀ (a b : Word32) (s t : State), exec (.setgain a b) s = .next t →
    t.muteLevel = s.muteLevel ∧ t.events = s.events) ∧
  (∀ s t : State, advance s = .next t →
    t.muteLevel = s.muteLevel ∧ ∃ es, t.events = s.events ++ es ∧ ∀ v, Event.setLevel .mute v ∉ es)

/-- R135, R159: no command but a SETGAIN writes chip-select, and none of them starts a transfer or a delay or touches
PHASE, the latches or the ghost codes. -/
def Obligations.OnlySetgainUsesTheBus : Prop :=
  ∀ (i : Instr) (s t : State), (∀ a b, i ≠ .setgain a b) → exec i s = .next t →
    t.csLevel = s.csLevel ∧ t.blockState = s.blockState ∧ t.setL = s.setL ∧ t.setR = s.setR ∧ t.wire = s.wire ∧
      t.ser = s.ser ∧ t.draws = s.draws ∧
      ∃ es, t.events = s.events ++ es ∧
        ∀ e ∈ es, (∃ v, e = .setLevel .mute v) ∨ ∃ r, e = .done r

/-- R112: a MAP on the map port does not disturb the sequencer: MAP then CTRL's step is CTRL's step then MAP. This is
what makes the model's choice of a step for MAP (log 10) unobservable. -/
def Obligations.MapCommutesWithTheSequencer : Prop :=
  ∀ (w : Word32) (s t : State), advance s = .next t → advance { s with mapIn := w } = .next { t with mapIn := w }

/-! ### The payload buffer -/

/-- R52, R54: the four accesses of PAY, little-endian, and no others. R54 says only that no other access exists; that the
model answers one with the fault `payloadAccess` is its own choice (log 5). -/
def Obligations.PayloadAccessesAreLittleEndianAndBounded : Prop :=
  ∀ (s : State),
    (∀ (a : Nat) (v : Code), a < 2 → ∃ t, memWriteByte a v s = .ok t ∧ memReadByte a t = .ok v ∧
      (∀ b, b ≠ a → memReadByte b t = memReadByte b s)) ∧
    (∀ w : BitVec 16, ∃ t, memWritePair 0 w s = .ok t ∧ memReadPair 0 t = .ok w ∧
      memReadByte 0 t = .ok (w.extractLsb' 0 8) ∧ memReadByte 1 t = .ok (w.extractLsb' 8 8)) ∧
    (∀ (a : Nat) (v : Code), 2 ≤ a → memWriteByte a v s = .error (.payloadAccess a 1) ∧
      memReadByte a s = .error (.payloadAccess a 1)) ∧
    (∀ (a : Nat) (w : BitVec 16), a ≠ 0 → memWritePair a w s = .error (.payloadAccess a 2) ∧
      memReadPair a s = .error (.payloadAccess a 2))

/-! ### Reset -/

/-- R36, R130, R131: what construction leaves, for every legal record: IDLE, not busy, no value in any latch, line or
ghost code, and no event. R36 writes "as configured" for the record; that State.reset is the construction of the default
record is the model's reading (log 1). -/
def Obligations.ConstructionLeavesTheResetValues : Prop :=
  (∀ c : Config, legalConfig c = true →
    ∃ t, construct c = .next t ∧ t.cfg = c ∧ t.phase = .idle ∧ t.lcode = none ∧ t.rcode = none ∧
      Payload.lookup t.pay 0 = none ∧ Payload.lookup t.pay 1 = none ∧ t.res = none ∧ t.busy = false ∧
      t.csLevel = none ∧ t.muteLevel = none ∧ t.setL = none ∧ t.setR = none ∧ t.events = []) ∧
  construct Config.default = .next State.reset ∧
  dec32Q Config.default.slope = .finite 2 ∧ dec32Q Config.default.offset = .finite 192 ∧
  Config.default.tSetupMs = 1 ∧ Config.default.tHoldMs = 1 ∧ Config.default.timeoutMs = 1000 ∧
  Config.default.csActiveLevel = .low ∧ Config.default.muteMutingLevel = .low ∧ Config.default.nanCode = 0

/-- R21 to R25, R104: which records are refused, said over the rational values of SLOPE and OFFSET. -/
def Obligations.ConstructionRefusesExactlyTheIllegalRecords : Prop :=
  ∀ c : Config,
    (((∃ v, dec32Q c.slope = .finite v ∧ v ≠ 0) ∧ (∃ v, dec32Q c.offset = .finite v) ∧
        1 ≤ c.tSetupMs.toNat ∧ 1 ≤ c.tHoldMs.toNat ∧ 1 ≤ c.timeoutMs.toNat ∧ c.nanCode ≤ 255) ↔
      ∃ t, construct c = .next t) ∧
    ((∀ t, construct c ≠ .next t) → construct c = .refused .illegalConfig)

/-- R220, R221: a later reset starts a new run in the reset state, emits nothing, and leaves chip-select at the level
last written, which is the active one anywhere between the two chip-select writes of a SETGAIN. That the mute line too
keeps its level is read from "Reset emits nothing", and that the new run has the old record is the model's choice (both
log 9). -/
def Obligations.LaterResetKeepsTheLineLevels : Prop :=
  ∀ s : State,
    s.afterReset.blockState = (State.init s.cfg).blockState ∧ s.afterReset.events = [] ∧
      s.afterReset.cfg = s.cfg ∧ s.afterReset.csLevel = s.csLevel ∧ s.afterReset.muteLevel = s.muteLevel ∧
      (s.Inv → s.phase = .sSetup ∨ s.phase = .sXfer ∨ s.phase = .sHold ∨ s.phase = .sRelease →
        s.afterReset.csLevel = some s.cfg.csActiveLevel)

/-! ### The output ports -/

/-- R79, R80, R52: the transfer request carries the left code in TX_DATA[7:0] and the right one in TX_DATA[15:8],
TX_COUNT is 2, and the timeout and delay numbers arrive unchanged. -/
def Obligations.TransferRequestCarriesTheLeftCodeLow : Prop :=
  ∀ (b0 b1 : Code) (ms : BitVec 16) (x : XferAnswer),
    (∃ data, (Event.transmit b0 b1 2 ms.toNat x).pulse = .txReq data 2 ms ∧
      data.extractLsb' 0 8 = b0 ∧ data.extractLsb' 8 8 = b1) ∧
    (Event.delay ms.toNat).pulse = .dlyReq ms

/-- R53: a byte goes out most significant bit first (PRESUMED by the spec, log 7). -/
def Obligations.BytesGoOutMostSignificantBitFirst : Prop :=
  ∀ b : Code, byteBits b =
    [b.getLsbD 7, b.getLsbD 6, b.getLsbD 5, b.getLsbD 4, b.getLsbD 3, b.getLsbD 2, b.getLsbD 1, b.getLsbD 0]

/-! ### The Gain Mapper -/

/-- R76: the whole-number decoding is exact: a finite word's units of 2^(-149) are its rational value, and the other
three classes are the same. -/
def Obligations.DecodingAnOperandIsExact : Prop :=
  ∀ w : Word32,
    dec32Q w = match dec32 w with
      | .nan => .nan
      | .posInf => .posInf
      | .negInf => .negInf
      | .finite n => .finite ((n : ℚ) / 2 ^ 149)

/-- R100 to R105: for every legal record and every one of the 2^32 operand words the code is the one the rational
formula gives: raw exact, clamped, rounded toward zero once. -/
def Obligations.GainCodeIsTheRationalFormula : Prop :=
  ∀ (c : Config) (w : Word32), legalConfig c = true → ((gainCode c w).toNat : ℤ) = rationalCode c w

/-- R104: "If dec32(w) is NaN the result is the configuration constant NAN_CODE, an integer 0 to 255, default 0", and
a MAP of it does not stop. -/
def Obligations.NanOperandGivesTheNanCode : Prop :=
  (∀ (c : Config) (w : Word32), legalConfig c = true → dec32Q w = .nan →
    (gainCode c w).toNat = c.nanCode ∧ c.nanCode ≤ 255 ∧
      ∀ s : State, s.cfg = c → ∃ t, exec (.map w) s = .next t ∧ t.mapOut.toNat = c.nanCode) ∧
  Config.default.nanCode = 0

/-- R105: the infinities saturate by the sign of SLOPE, which is never 0. -/
def Obligations.InfiniteOperandsSaturateBySlopeSign : Prop :=
  ∀ c : Config, legalConfig c = true →
    configValue c.slope ≠ 0 ∧
    (configValue c.slope > 0 → gainCode c 0x7F800000 = 255 ∧ gainCode c 0xFF800000 = 0) ∧
    (configValue c.slope < 0 → gainCode c 0x7F800000 = 0 ∧ gainCode c 0xFF800000 = 255) ∧
    gainCode Config.default 0x7F800000 = 255 ∧ gainCode Config.default 0xFF800000 = 0

/-- R106: the two zeros map alike, to the clamped and truncated OFFSET; subnormals take part in the exact arithmetic. -/
def Obligations.ZerosAndSubnormalsAreExact : Prop :=
  (∀ c : Config, legalConfig c = true →
    dec32Q 0x00000000 = .finite 0 ∧ dec32Q 0x80000000 = .finite 0 ∧
    ((gainCode c 0x00000000).toNat : ℤ) = truncQ (clampQ (configValue c.offset) 0 255) ∧
    ((gainCode c 0x80000000).toNat : ℤ) = truncQ (clampQ (configValue c.offset) 0 255)) ∧
  gainCode Config.default 0x00000000 = 192 ∧ gainCode Config.default 0x80000000 = 192 ∧
  (∀ w : Word32, expField w = 0 → sigField w ≠ 0 →
    ∃ v, v ≠ 0 ∧ dec32Q w = .finite v ∧ ∀ c : Config, legalConfig c = true →
      ((gainCode c w).toNat : ℤ) = truncQ (clampQ (rawQ c v) 0 255)) ∧
  (∃ v, dec32Q 0x00000001 = .finite v ∧ rawQ Config.default v = 192 + (2 : ℚ) ^ (-148 : ℤ)) ∧
  gainCode Config.default 0x00000001 = 192 ∧
  (∃ v, dec32Q 0x80000001 = .finite v ∧ rawQ Config.default v = 192 - (2 : ℚ) ^ (-148 : ℤ)) ∧
  gainCode Config.default 0x80000001 = 191

/-- R109: monotonic over the non-NaN operands ordered as extended reals, rising for SLOPE > 0, falling for SLOPE < 0. -/
def Obligations.GainCodeIsMonotonic : Prop :=
  ∀ (c : Config) (w1 w2 : Word32), legalConfig c = true → (dec32Q w1).atMost (dec32Q w2) →
    (configValue c.slope > 0 → (gainCode c w1).toNat ≤ (gainCode c w2).toNat) ∧
    (configValue c.slope < 0 → (gainCode c w2).toNat ≤ (gainCode c w1).toNat)

/-- R110: the exact saturation thresholds, for either sign of SLOPE, and with the default constants. -/
def Obligations.SaturationThresholdsAreExact : Prop :=
  ∀ (c : Config) (w : Word32) (v : ℚ), legalConfig c = true → dec32Q w = .finite v →
    (gainCode c w = 0 ↔ rawQ c v < 1) ∧ (gainCode c w = 255 ↔ rawQ c v ≥ 255) ∧
    (configValue c.slope > 0 →
      (gainCode c w = 0 ↔ v < (1 - configValue c.offset) / configValue c.slope) ∧
      (gainCode c w = 255 ↔ v ≥ (255 - configValue c.offset) / configValue c.slope) ∧
      (v ≤ -configValue c.offset / configValue c.slope → gainCode c w = 0)) ∧
    (configValue c.slope < 0 →
      (gainCode c w = 0 ↔ v > (1 - configValue c.offset) / configValue c.slope) ∧
      (gainCode c w = 255 ↔ v ≤ (255 - configValue c.offset) / configValue c.slope)) ∧
    (gainCode Config.default w = 0 ↔ v < -95.5) ∧ (gainCode Config.default w = 255 ↔ v ≥ 31.5)

/-- R111: with SLOPE = 2 and OFFSET = 192 the code is the number of whole half-decibel steps above −96 dB, limited to
0 to 255. -/
def Obligations.DefaultMappingCountsHalfDecibelSteps : Prop :=
  ∀ (c : Config) (w : Word32) (v : ℚ), configValue c.slope = 2 → configValue c.offset = 192 → dec32Q w = .finite v →
    ((gainCode c w).toNat : ℤ) = max 0 (min 255 (⌊2 * v⌋ + 192))

/-! ### Codes of the line port, the completion port and PHASE -/

/-- R80, R78, R71: LINE_SEL is 0 for CS and 1 for MUTE, LINE_LEVEL is 0 for LOW and 1 for HIGH, and DONE_RESULT is the code
of the Result. -/
def Obligations.LineAndCompletionPortsCarryTheirCodes : Prop :=
  (Event.setLevel .cs .low).pulse = .lineWr 0 0 ∧ (Event.setLevel .cs .high).pulse = .lineWr 0 1 ∧
  (Event.setLevel .mute .low).pulse = .lineWr 1 0 ∧ (Event.setLevel .mute .high).pulse = .lineWr 1 1 ∧
  (Event.done .ok).pulse = .doneValid 0 ∧ (Event.done .xferTimeout).pulse = .doneValid 1 ∧
  (Event.done .xferError).pulse = .doneValid 2 ∧ (Event.done .illegalCmd).pulse = .doneValid 3

/-- R30: the 3-bit code of each value of PHASE, no two alike; "the patterns 6 and 7 are never produced". -/
def Obligations.PhaseHasItsThreeBitCode : Prop :=
  Phase.idle.bits = 0 ∧ Phase.sAssert.bits = 1 ∧ Phase.sSetup.bits = 2 ∧ Phase.sXfer.bits = 3 ∧
  Phase.sHold.bits = 4 ∧ Phase.sRelease.bits = 5 ∧
  (∀ p q : Phase, p.bits = q.bits → p = q) ∧ ∀ p : Phase, p.bits ≠ 6 ∧ p.bits ≠ 7
end

