-- ==== Sys2Proof/Laws/Decode.lean ====
section
/-! SUPPORT. The fields of a command word and the word of its fields are inverse to each other (30_encoding.md R71). -/

namespace Sys2Proof

@[simp] theorem cmdOp_commandWord (op : BitVec 8) (a b : Word32) : cmdOp (commandWord op a b) = op := by
  apply BitVec.eq_of_getLsbD_eq
  intro i hi
  simp only [cmdOp, commandWord, BitVec.getLsbD_extractLsb', BitVec.getLsbD_append, hi, decide_true, Bool.true_and]
  rw [if_neg (by omega), if_neg (by omega)]
  congr 1; omega

@[simp] theorem cmdA_commandWord (op : BitVec 8) (a b : Word32) : cmdA (commandWord op a b) = a := by
  apply BitVec.eq_of_getLsbD_eq
  intro i hi
  simp only [cmdA, commandWord, BitVec.getLsbD_extractLsb', BitVec.getLsbD_append, hi, decide_true, Bool.true_and]
  rw [if_neg (by omega), if_pos (by omega)]
  congr 1; omega

@[simp] theorem cmdB_commandWord (op : BitVec 8) (a b : Word32) : cmdB (commandWord op a b) = b := by
  apply BitVec.eq_of_getLsbD_eq
  intro i hi
  simp only [cmdB, commandWord, BitVec.getLsbD_extractLsb', BitVec.getLsbD_append, hi, decide_true, Bool.true_and]
  rw [if_pos (by omega)]
  congr 1; omega

theorem commandWord_fields (w : CmdWord) : commandWord (cmdOp w) (cmdA w) (cmdB w) = w := by
  apply BitVec.eq_of_getLsbD_eq
  intro i hi
  simp only [cmdOp, cmdA, cmdB, commandWord, BitVec.getLsbD_extractLsb', BitVec.getLsbD_append]
  split_ifs with h1 h2
  · simp [h1]
  · simp [h2, show 32 + (i - 32) = i by omega]
  · simp [show i - 32 - 32 < 8 by omega, show 64 + (i - 32 - 32) = i by omega]

/-- A port word's length and value give the port word back. -/
theorem portWordOfTable_value (p : PortWord) : portWordOfTable p.nbits p.value = .ok p := by
  cases p with
  | mapPort w => simp [PortWord.nbits, PortWord.value, portWordOfTable, w.isLt]
  | commandPort w => simp [PortWord.nbits, PortWord.value, portWordOfTable, w.isLt]

end Sys2Proof
end

