-- ==== Sys2Proof/Laws/Mapper.lean ====
section
/-! SUPPORT. What the arithmetic of the Gain Mapper's shared operations can answer. -/

namespace Sys2Proof.Machine

theorem oneUnits_pos : 0 < oneUnits := by decide

theorem oneRaw_pos : 0 < oneRaw := by decide

/-- A clamp between ordered bounds lies between them. -/
theorem clampInt_bounds (q : Int) {lo hi : Int} (h : lo ≤ hi) : lo ≤ clampInt q lo hi ∧ clampInt q lo hi ≤ hi := by
  unfold clampInt
  split
  · exact ⟨le_refl _, h⟩
  · split
    · exact ⟨h, le_refl _⟩
    · omega

theorem clampInt_mono {p q : Int} (lo hi : Int) (hb : lo ≤ hi) (h : p ≤ q) : clampInt p lo hi ≤ clampInt q lo hi := by
  unfold clampInt
  split_ifs <;> omega

/-- The saturated value lies in 0..255. -/
theorem saturatedUnits_bounds (c : Config) (v : Int) :
    0 ≤ saturatedUnits c v ∧ saturatedUnits c v ≤ 255 * oneRaw :=
  clampInt_bounds _ (by decide)

/-- The code of a finite operand is the floor of the saturated value: nothing wraps. -/
theorem finiteCode_toNat (c : Config) (v : Int) :
    ((finiteCode c v).toNat : Int) = saturatedUnits c v / oneRaw := by
  obtain ⟨h0, h1⟩ := saturatedUnits_bounds c v
  have hlo : 0 ≤ saturatedUnits c v / oneRaw := Int.ediv_nonneg h0 oneRaw_pos.le
  have hhi : saturatedUnits c v / oneRaw ≤ 255 := by
    have := Int.ediv_le_ediv oneRaw_pos h1
    rwa [Int.mul_ediv_cancel _ oneRaw_pos.ne'] at this
  unfold finiteCode
  rw [Int.tdiv_eq_ediv_of_nonneg h0, BitVec.toNat_ofInt]
  omega

/-- Each of the four classes of an operand, and the code it is given. -/
theorem gainCode_cases (c : Config) (w : Word32) :
    (dec32 w = .nan ∧ gainCode c w = BitVec.ofNat 8 c.nanCode) ∨
      (dec32 w = .posInf ∧ gainCode c w = infiniteCode c true) ∨
      (dec32 w = .negInf ∧ gainCode c w = infiniteCode c false) ∨
      (∃ v, dec32 w = .finite v ∧ gainCode c w = finiteCode c v) := by
  unfold gainCode
  cases dec32 w <;> simp

/-- What a legal record guarantees. -/
theorem legalConfig_spec {c : Config} (h : legalConfig c = true) :
    (∃ n, dec32 c.slope = .finite n ∧ n ≠ 0 ∧ configUnits c.slope = n) ∧
      (∃ n, dec32 c.offset = .finite n ∧ configUnits c.offset = n) ∧
      c.tSetupMs ≠ 0 ∧ c.tHoldMs ≠ 0 ∧ c.timeoutMs ≠ 0 ∧ c.nanCode ≤ 255 := by
  simp only [legalConfig, Bool.and_eq_true, decide_eq_true_eq] at h
  obtain ⟨⟨⟨⟨⟨⟨hs, hz⟩, ho⟩, h1⟩, h2⟩, h3⟩, h4⟩ := h
  refine ⟨?_, ?_, h1, h2, h3, h4⟩
  · unfold isFinite at hs
    unfold configUnits at hz ⊢
    cases hd : dec32 c.slope <;> simp_all
  · unfold isFinite at ho
    unfold configUnits
    cases hd : dec32 c.offset <;> simp_all

end Sys2Proof.Machine
end

