-- ==== Sys2Proof/Laws/State.lean ====
section
/-! SUPPORT. One lemma per field per update of `State`: what the field holds after the update. -/

namespace Sys2Proof.Machine
namespace State

variable (s : State)

/-! ### `setPhase` -/

@[simp] theorem setPhase_cfg (p : Phase) : (s.setPhase p).cfg = s.cfg := rfl
@[simp] theorem setPhase_phase (p : Phase) : (s.setPhase p).phase = p := rfl
@[simp] theorem setPhase_lcode (p : Phase) : (s.setPhase p).lcode = s.lcode := rfl
@[simp] theorem setPhase_rcode (p : Phase) : (s.setPhase p).rcode = s.rcode := rfl
@[simp] theorem setPhase_pay (p : Phase) : (s.setPhase p).pay = s.pay := rfl
@[simp] theorem setPhase_res (p : Phase) : (s.setPhase p).res = s.res := rfl
@[simp] theorem setPhase_csLevel (p : Phase) : (s.setPhase p).csLevel = s.csLevel := rfl
@[simp] theorem setPhase_muteLevel (p : Phase) : (s.setPhase p).muteLevel = s.muteLevel := rfl
@[simp] theorem setPhase_setL (p : Phase) : (s.setPhase p).setL = s.setL := rfl
@[simp] theorem setPhase_setR (p : Phase) : (s.setPhase p).setR = s.setR := rfl
@[simp] theorem setPhase_events (p : Phase) : (s.setPhase p).events = s.events := rfl
@[simp] theorem setPhase_wire (p : Phase) : (s.setPhase p).wire = s.wire := rfl
@[simp] theorem setPhase_mapIn (p : Phase) : (s.setPhase p).mapIn = s.mapIn := rfl
@[simp] theorem setPhase_host (p : Phase) : (s.setPhase p).host = s.host := rfl
@[simp] theorem setPhase_ser (p : Phase) : (s.setPhase p).ser = s.ser := rfl
@[simp] theorem setPhase_draws (p : Phase) : (s.setPhase p).draws = s.draws := rfl

/-! ### `setCodes` -/

@[simp] theorem setCodes_cfg (l r : Code) : (s.setCodes l r).cfg = s.cfg := rfl
@[simp] theorem setCodes_phase (l r : Code) : (s.setCodes l r).phase = s.phase := rfl
@[simp] theorem setCodes_lcode (l r : Code) : (s.setCodes l r).lcode = some l := rfl
@[simp] theorem setCodes_rcode (l r : Code) : (s.setCodes l r).rcode = some r := rfl
@[simp] theorem setCodes_pay (l r : Code) : (s.setCodes l r).pay = s.pay := rfl
@[simp] theorem setCodes_res (l r : Code) : (s.setCodes l r).res = s.res := rfl
@[simp] theorem setCodes_csLevel (l r : Code) : (s.setCodes l r).csLevel = s.csLevel := rfl
@[simp] theorem setCodes_muteLevel (l r : Code) : (s.setCodes l r).muteLevel = s.muteLevel := rfl
@[simp] theorem setCodes_setL (l r : Code) : (s.setCodes l r).setL = s.setL := rfl
@[simp] theorem setCodes_setR (l r : Code) : (s.setCodes l r).setR = s.setR := rfl
@[simp] theorem setCodes_events (l r : Code) : (s.setCodes l r).events = s.events := rfl
@[simp] theorem setCodes_wire (l r : Code) : (s.setCodes l r).wire = s.wire := rfl
@[simp] theorem setCodes_mapIn (l r : Code) : (s.setCodes l r).mapIn = s.mapIn := rfl
@[simp] theorem setCodes_host (l r : Code) : (s.setCodes l r).host = s.host := rfl
@[simp] theorem setCodes_ser (l r : Code) : (s.setCodes l r).ser = s.ser := rfl
@[simp] theorem setCodes_draws (l r : Code) : (s.setCodes l r).draws = s.draws := rfl

/-! ### `setRes` -/

@[simp] theorem setRes_cfg (a : XferAnswer) : (s.setRes a).cfg = s.cfg := rfl
@[simp] theorem setRes_phase (a : XferAnswer) : (s.setRes a).phase = s.phase := rfl
@[simp] theorem setRes_lcode (a : XferAnswer) : (s.setRes a).lcode = s.lcode := rfl
@[simp] theorem setRes_rcode (a : XferAnswer) : (s.setRes a).rcode = s.rcode := rfl
@[simp] theorem setRes_pay (a : XferAnswer) : (s.setRes a).pay = s.pay := rfl
@[simp] theorem setRes_res (a : XferAnswer) : (s.setRes a).res = some a := rfl
@[simp] theorem setRes_csLevel (a : XferAnswer) : (s.setRes a).csLevel = s.csLevel := rfl
@[simp] theorem setRes_muteLevel (a : XferAnswer) : (s.setRes a).muteLevel = s.muteLevel := rfl
@[simp] theorem setRes_setL (a : XferAnswer) : (s.setRes a).setL = s.setL := rfl
@[simp] theorem setRes_setR (a : XferAnswer) : (s.setRes a).setR = s.setR := rfl
@[simp] theorem setRes_events (a : XferAnswer) : (s.setRes a).events = s.events := rfl
@[simp] theorem setRes_wire (a : XferAnswer) : (s.setRes a).wire = s.wire := rfl
@[simp] theorem setRes_mapIn (a : XferAnswer) : (s.setRes a).mapIn = s.mapIn := rfl
@[simp] theorem setRes_host (a : XferAnswer) : (s.setRes a).host = s.host := rfl
@[simp] theorem setRes_ser (a : XferAnswer) : (s.setRes a).ser = s.ser := rfl
@[simp] theorem setRes_draws (a : XferAnswer) : (s.setRes a).draws = s.draws := rfl

/-! ### `clearLatches` -/

@[simp] theorem clearLatches_cfg : s.clearLatches.cfg = s.cfg := rfl
@[simp] theorem clearLatches_phase : s.clearLatches.phase = s.phase := rfl
@[simp] theorem clearLatches_lcode : s.clearLatches.lcode = none := rfl
@[simp] theorem clearLatches_rcode : s.clearLatches.rcode = none := rfl
@[simp] theorem clearLatches_pay : s.clearLatches.pay = [] := rfl
@[simp] theorem clearLatches_res : s.clearLatches.res = none := rfl
@[simp] theorem clearLatches_csLevel : s.clearLatches.csLevel = s.csLevel := rfl
@[simp] theorem clearLatches_muteLevel : s.clearLatches.muteLevel = s.muteLevel := rfl
@[simp] theorem clearLatches_setL : s.clearLatches.setL = s.setL := rfl
@[simp] theorem clearLatches_setR : s.clearLatches.setR = s.setR := rfl
@[simp] theorem clearLatches_events : s.clearLatches.events = s.events := rfl
@[simp] theorem clearLatches_wire : s.clearLatches.wire = s.wire := rfl
@[simp] theorem clearLatches_mapIn : s.clearLatches.mapIn = s.mapIn := rfl
@[simp] theorem clearLatches_host : s.clearLatches.host = s.host := rfl
@[simp] theorem clearLatches_ser : s.clearLatches.ser = s.ser := rfl
@[simp] theorem clearLatches_draws : s.clearLatches.draws = s.draws := rfl

/-! ### `setGhost` -/

@[simp] theorem setGhost_cfg (l r : Option Code) : (s.setGhost l r).cfg = s.cfg := rfl
@[simp] theorem setGhost_phase (l r : Option Code) : (s.setGhost l r).phase = s.phase := rfl
@[simp] theorem setGhost_lcode (l r : Option Code) : (s.setGhost l r).lcode = s.lcode := rfl
@[simp] theorem setGhost_rcode (l r : Option Code) : (s.setGhost l r).rcode = s.rcode := rfl
@[simp] theorem setGhost_pay (l r : Option Code) : (s.setGhost l r).pay = s.pay := rfl
@[simp] theorem setGhost_res (l r : Option Code) : (s.setGhost l r).res = s.res := rfl
@[simp] theorem setGhost_csLevel (l r : Option Code) : (s.setGhost l r).csLevel = s.csLevel := rfl
@[simp] theorem setGhost_muteLevel (l r : Option Code) : (s.setGhost l r).muteLevel = s.muteLevel := rfl
@[simp] theorem setGhost_setL (l r : Option Code) : (s.setGhost l r).setL = l := rfl
@[simp] theorem setGhost_setR (l r : Option Code) : (s.setGhost l r).setR = r := rfl
@[simp] theorem setGhost_events (l r : Option Code) : (s.setGhost l r).events = s.events := rfl
@[simp] theorem setGhost_wire (l r : Option Code) : (s.setGhost l r).wire = s.wire := rfl
@[simp] theorem setGhost_mapIn (l r : Option Code) : (s.setGhost l r).mapIn = s.mapIn := rfl
@[simp] theorem setGhost_host (l r : Option Code) : (s.setGhost l r).host = s.host := rfl
@[simp] theorem setGhost_ser (l r : Option Code) : (s.setGhost l r).ser = s.ser := rfl
@[simp] theorem setGhost_draws (l r : Option Code) : (s.setGhost l r).draws = s.draws := rfl

/-! ### `driveMapIn` -/

@[simp] theorem driveMapIn_cfg (w : Word32) : (s.driveMapIn w).cfg = s.cfg := rfl
@[simp] theorem driveMapIn_phase (w : Word32) : (s.driveMapIn w).phase = s.phase := rfl
@[simp] theorem driveMapIn_lcode (w : Word32) : (s.driveMapIn w).lcode = s.lcode := rfl
@[simp] theorem driveMapIn_rcode (w : Word32) : (s.driveMapIn w).rcode = s.rcode := rfl
@[simp] theorem driveMapIn_pay (w : Word32) : (s.driveMapIn w).pay = s.pay := rfl
@[simp] theorem driveMapIn_res (w : Word32) : (s.driveMapIn w).res = s.res := rfl
@[simp] theorem driveMapIn_csLevel (w : Word32) : (s.driveMapIn w).csLevel = s.csLevel := rfl
@[simp] theorem driveMapIn_muteLevel (w : Word32) : (s.driveMapIn w).muteLevel = s.muteLevel := rfl
@[simp] theorem driveMapIn_setL (w : Word32) : (s.driveMapIn w).setL = s.setL := rfl
@[simp] theorem driveMapIn_setR (w : Word32) : (s.driveMapIn w).setR = s.setR := rfl
@[simp] theorem driveMapIn_events (w : Word32) : (s.driveMapIn w).events = s.events := rfl
@[simp] theorem driveMapIn_wire (w : Word32) : (s.driveMapIn w).wire = s.wire := rfl
@[simp] theorem driveMapIn_mapIn (w : Word32) : (s.driveMapIn w).mapIn = w := rfl
@[simp] theorem driveMapIn_host (w : Word32) : (s.driveMapIn w).host = s.host := rfl
@[simp] theorem driveMapIn_ser (w : Word32) : (s.driveMapIn w).ser = s.ser := rfl
@[simp] theorem driveMapIn_draws (w : Word32) : (s.driveMapIn w).draws = s.draws := rfl

/-! ### `setHost` -/

@[simp] theorem setHost_cfg (h : List HostMove) : (s.setHost h).cfg = s.cfg := rfl
@[simp] theorem setHost_phase (h : List HostMove) : (s.setHost h).phase = s.phase := rfl
@[simp] theorem setHost_lcode (h : List HostMove) : (s.setHost h).lcode = s.lcode := rfl
@[simp] theorem setHost_rcode (h : List HostMove) : (s.setHost h).rcode = s.rcode := rfl
@[simp] theorem setHost_pay (h : List HostMove) : (s.setHost h).pay = s.pay := rfl
@[simp] theorem setHost_res (h : List HostMove) : (s.setHost h).res = s.res := rfl
@[simp] theorem setHost_csLevel (h : List HostMove) : (s.setHost h).csLevel = s.csLevel := rfl
@[simp] theorem setHost_muteLevel (h : List HostMove) : (s.setHost h).muteLevel = s.muteLevel := rfl
@[simp] theorem setHost_setL (h : List HostMove) : (s.setHost h).setL = s.setL := rfl
@[simp] theorem setHost_setR (h : List HostMove) : (s.setHost h).setR = s.setR := rfl
@[simp] theorem setHost_events (h : List HostMove) : (s.setHost h).events = s.events := rfl
@[simp] theorem setHost_wire (h : List HostMove) : (s.setHost h).wire = s.wire := rfl
@[simp] theorem setHost_mapIn (h : List HostMove) : (s.setHost h).mapIn = s.mapIn := rfl
@[simp] theorem setHost_host (h : List HostMove) : (s.setHost h).host = h := rfl
@[simp] theorem setHost_ser (h : List HostMove) : (s.setHost h).ser = s.ser := rfl
@[simp] theorem setHost_draws (h : List HostMove) : (s.setHost h).draws = s.draws := rfl

/-! ### `emit` -/

@[simp] theorem emit_cfg (e : Event) : (s.emit e).cfg = s.cfg := rfl
@[simp] theorem emit_phase (e : Event) : (s.emit e).phase = s.phase := rfl
@[simp] theorem emit_lcode (e : Event) : (s.emit e).lcode = s.lcode := rfl
@[simp] theorem emit_rcode (e : Event) : (s.emit e).rcode = s.rcode := rfl
@[simp] theorem emit_pay (e : Event) : (s.emit e).pay = s.pay := rfl
@[simp] theorem emit_res (e : Event) : (s.emit e).res = s.res := rfl
@[simp] theorem emit_csLevel (e : Event) : (s.emit e).csLevel = s.csLevel := rfl
@[simp] theorem emit_muteLevel (e : Event) : (s.emit e).muteLevel = s.muteLevel := rfl
@[simp] theorem emit_setL (e : Event) : (s.emit e).setL = s.setL := rfl
@[simp] theorem emit_setR (e : Event) : (s.emit e).setR = s.setR := rfl
@[simp] theorem emit_events (e : Event) : (s.emit e).events = s.events ++ [e] := rfl
@[simp] theorem emit_wire (e : Event) : (s.emit e).wire = s.wire := rfl
@[simp] theorem emit_mapIn (e : Event) : (s.emit e).mapIn = s.mapIn := rfl
@[simp] theorem emit_host (e : Event) : (s.emit e).host = s.host := rfl
@[simp] theorem emit_ser (e : Event) : (s.emit e).ser = s.ser := rfl
@[simp] theorem emit_draws (e : Event) : (s.emit e).draws = s.draws := rfl

/-! ### `clockOut` -/

@[simp] theorem clockOut_cfg (bits : List Bool) : (s.clockOut bits).cfg = s.cfg := rfl
@[simp] theorem clockOut_phase (bits : List Bool) : (s.clockOut bits).phase = s.phase := rfl
@[simp] theorem clockOut_lcode (bits : List Bool) : (s.clockOut bits).lcode = s.lcode := rfl
@[simp] theorem clockOut_rcode (bits : List Bool) : (s.clockOut bits).rcode = s.rcode := rfl
@[simp] theorem clockOut_pay (bits : List Bool) : (s.clockOut bits).pay = s.pay := rfl
@[simp] theorem clockOut_res (bits : List Bool) : (s.clockOut bits).res = s.res := rfl
@[simp] theorem clockOut_csLevel (bits : List Bool) : (s.clockOut bits).csLevel = s.csLevel := rfl
@[simp] theorem clockOut_muteLevel (bits : List Bool) : (s.clockOut bits).muteLevel = s.muteLevel := rfl
@[simp] theorem clockOut_setL (bits : List Bool) : (s.clockOut bits).setL = s.setL := rfl
@[simp] theorem clockOut_setR (bits : List Bool) : (s.clockOut bits).setR = s.setR := rfl
@[simp] theorem clockOut_events (bits : List Bool) : (s.clockOut bits).events = s.events := rfl
@[simp] theorem clockOut_wire (bits : List Bool) : (s.clockOut bits).wire = s.wire ++ bits := rfl
@[simp] theorem clockOut_mapIn (bits : List Bool) : (s.clockOut bits).mapIn = s.mapIn := rfl
@[simp] theorem clockOut_host (bits : List Bool) : (s.clockOut bits).host = s.host := rfl
@[simp] theorem clockOut_ser (bits : List Bool) : (s.clockOut bits).ser = s.ser := rfl
@[simp] theorem clockOut_draws (bits : List Bool) : (s.clockOut bits).draws = s.draws := rfl

/-! ### `popReply` -/

@[simp] theorem popReply_cfg : s.popReply.cfg = s.cfg := rfl
@[simp] theorem popReply_phase : s.popReply.phase = s.phase := rfl
@[simp] theorem popReply_lcode : s.popReply.lcode = s.lcode := rfl
@[simp] theorem popReply_rcode : s.popReply.rcode = s.rcode := rfl
@[simp] theorem popReply_pay : s.popReply.pay = s.pay := rfl
@[simp] theorem popReply_res : s.popReply.res = s.res := rfl
@[simp] theorem popReply_csLevel : s.popReply.csLevel = s.csLevel := rfl
@[simp] theorem popReply_muteLevel : s.popReply.muteLevel = s.muteLevel := rfl
@[simp] theorem popReply_setL : s.popReply.setL = s.setL := rfl
@[simp] theorem popReply_setR : s.popReply.setR = s.setR := rfl
@[simp] theorem popReply_events : s.popReply.events = s.events := rfl
@[simp] theorem popReply_wire : s.popReply.wire = s.wire := rfl
@[simp] theorem popReply_mapIn : s.popReply.mapIn = s.mapIn := rfl
@[simp] theorem popReply_host : s.popReply.host = s.host := rfl
@[simp] theorem popReply_ser : s.popReply.ser = s.ser.tail := rfl
@[simp] theorem popReply_draws : s.popReply.draws = if s.ser.isEmpty then s.draws + 1 else s.draws := rfl

/-! ### `emitDelay` -/

@[simp] theorem emitDelay_cfg (ms : BitVec 16) : (s.emitDelay ms).cfg = s.cfg := rfl
@[simp] theorem emitDelay_phase (ms : BitVec 16) : (s.emitDelay ms).phase = s.phase := rfl
@[simp] theorem emitDelay_lcode (ms : BitVec 16) : (s.emitDelay ms).lcode = s.lcode := rfl
@[simp] theorem emitDelay_rcode (ms : BitVec 16) : (s.emitDelay ms).rcode = s.rcode := rfl
@[simp] theorem emitDelay_pay (ms : BitVec 16) : (s.emitDelay ms).pay = s.pay := rfl
@[simp] theorem emitDelay_res (ms : BitVec 16) : (s.emitDelay ms).res = s.res := rfl
@[simp] theorem emitDelay_csLevel (ms : BitVec 16) : (s.emitDelay ms).csLevel = s.csLevel := rfl
@[simp] theorem emitDelay_muteLevel (ms : BitVec 16) : (s.emitDelay ms).muteLevel = s.muteLevel := rfl
@[simp] theorem emitDelay_setL (ms : BitVec 16) : (s.emitDelay ms).setL = s.setL := rfl
@[simp] theorem emitDelay_setR (ms : BitVec 16) : (s.emitDelay ms).setR = s.setR := rfl
@[simp] theorem emitDelay_events (ms : BitVec 16) : (s.emitDelay ms).events = s.events ++ [.delay ms.toNat] := rfl
@[simp] theorem emitDelay_wire (ms : BitVec 16) : (s.emitDelay ms).wire = s.wire := rfl
@[simp] theorem emitDelay_mapIn (ms : BitVec 16) : (s.emitDelay ms).mapIn = s.mapIn := rfl
@[simp] theorem emitDelay_host (ms : BitVec 16) : (s.emitDelay ms).host = s.host := rfl
@[simp] theorem emitDelay_ser (ms : BitVec 16) : (s.emitDelay ms).ser = s.ser := rfl
@[simp] theorem emitDelay_draws (ms : BitVec 16) : (s.emitDelay ms).draws = s.draws := rfl

/-! ### `report` -/

@[simp] theorem report_cfg (r : Result) : (s.report r).cfg = s.cfg := rfl
@[simp] theorem report_phase (r : Result) : (s.report r).phase = s.phase := rfl
@[simp] theorem report_lcode (r : Result) : (s.report r).lcode = s.lcode := rfl
@[simp] theorem report_rcode (r : Result) : (s.report r).rcode = s.rcode := rfl
@[simp] theorem report_pay (r : Result) : (s.report r).pay = s.pay := rfl
@[simp] theorem report_res (r : Result) : (s.report r).res = s.res := rfl
@[simp] theorem report_csLevel (r : Result) : (s.report r).csLevel = s.csLevel := rfl
@[simp] theorem report_muteLevel (r : Result) : (s.report r).muteLevel = s.muteLevel := rfl
@[simp] theorem report_setL (r : Result) : (s.report r).setL = s.setL := rfl
@[simp] theorem report_setR (r : Result) : (s.report r).setR = s.setR := rfl
@[simp] theorem report_events (r : Result) : (s.report r).events = s.events ++ [.done r] := rfl
@[simp] theorem report_wire (r : Result) : (s.report r).wire = s.wire := rfl
@[simp] theorem report_mapIn (r : Result) : (s.report r).mapIn = s.mapIn := rfl
@[simp] theorem report_host (r : Result) : (s.report r).host = s.host := rfl
@[simp] theorem report_ser (r : Result) : (s.report r).ser = s.ser := rfl
@[simp] theorem report_draws (r : Result) : (s.report r).draws = s.draws := rfl

/-! ### `raiseFailure` -/

@[simp] theorem raiseFailure_cfg (f : Failure) : (s.raiseFailure f).cfg = s.cfg := rfl
@[simp] theorem raiseFailure_phase (f : Failure) : (s.raiseFailure f).phase = s.phase := rfl
@[simp] theorem raiseFailure_lcode (f : Failure) : (s.raiseFailure f).lcode = s.lcode := rfl
@[simp] theorem raiseFailure_rcode (f : Failure) : (s.raiseFailure f).rcode = s.rcode := rfl
@[simp] theorem raiseFailure_pay (f : Failure) : (s.raiseFailure f).pay = s.pay := rfl
@[simp] theorem raiseFailure_res (f : Failure) : (s.raiseFailure f).res = s.res := rfl
@[simp] theorem raiseFailure_csLevel (f : Failure) : (s.raiseFailure f).csLevel = s.csLevel := rfl
@[simp] theorem raiseFailure_muteLevel (f : Failure) : (s.raiseFailure f).muteLevel = s.muteLevel := rfl
@[simp] theorem raiseFailure_setL (f : Failure) : (s.raiseFailure f).setL = s.setL := rfl
@[simp] theorem raiseFailure_setR (f : Failure) : (s.raiseFailure f).setR = s.setR := rfl
@[simp] theorem raiseFailure_events (f : Failure) : (s.raiseFailure f).events = s.events ++ [.done f.result] := rfl
@[simp] theorem raiseFailure_wire (f : Failure) : (s.raiseFailure f).wire = s.wire := rfl
@[simp] theorem raiseFailure_mapIn (f : Failure) : (s.raiseFailure f).mapIn = s.mapIn := rfl
@[simp] theorem raiseFailure_host (f : Failure) : (s.raiseFailure f).host = s.host := rfl
@[simp] theorem raiseFailure_ser (f : Failure) : (s.raiseFailure f).ser = s.ser := rfl
@[simp] theorem raiseFailure_draws (f : Failure) : (s.raiseFailure f).draws = s.draws := rfl

/-! ### `emitTransmit` -/

@[simp] theorem emitTransmit_cfg (b0 b1 : Code) : (s.emitTransmit b0 b1).cfg = s.cfg := rfl
@[simp] theorem emitTransmit_phase (b0 b1 : Code) : (s.emitTransmit b0 b1).phase = s.phase := rfl
@[simp] theorem emitTransmit_lcode (b0 b1 : Code) : (s.emitTransmit b0 b1).lcode = s.lcode := rfl
@[simp] theorem emitTransmit_rcode (b0 b1 : Code) : (s.emitTransmit b0 b1).rcode = s.rcode := rfl
@[simp] theorem emitTransmit_pay (b0 b1 : Code) : (s.emitTransmit b0 b1).pay = s.pay := rfl
@[simp] theorem emitTransmit_res (b0 b1 : Code) : (s.emitTransmit b0 b1).res = s.res := rfl
@[simp] theorem emitTransmit_csLevel (b0 b1 : Code) : (s.emitTransmit b0 b1).csLevel = s.csLevel := rfl
@[simp] theorem emitTransmit_muteLevel (b0 b1 : Code) : (s.emitTransmit b0 b1).muteLevel = s.muteLevel := rfl
@[simp] theorem emitTransmit_setL (b0 b1 : Code) : (s.emitTransmit b0 b1).setL = s.setL := rfl
@[simp] theorem emitTransmit_setR (b0 b1 : Code) : (s.emitTransmit b0 b1).setR = s.setR := rfl
@[simp] theorem emitTransmit_events (b0 b1 : Code) : (s.emitTransmit b0 b1).events = s.events ++ [.transmit b0 b1 2 s.cfg.timeoutMs.toNat s.serAnswer] := rfl
@[simp] theorem emitTransmit_wire (b0 b1 : Code) : (s.emitTransmit b0 b1).wire = s.wire ++ clockedBits s.nextReply b0 b1 := rfl
@[simp] theorem emitTransmit_mapIn (b0 b1 : Code) : (s.emitTransmit b0 b1).mapIn = s.mapIn := rfl
@[simp] theorem emitTransmit_host (b0 b1 : Code) : (s.emitTransmit b0 b1).host = s.host := rfl
@[simp] theorem emitTransmit_ser (b0 b1 : Code) : (s.emitTransmit b0 b1).ser = s.ser.tail := rfl
@[simp] theorem emitTransmit_draws (b0 b1 : Code) : (s.emitTransmit b0 b1).draws = if s.ser.isEmpty then s.draws + 1 else s.draws := rfl

/-! ### `holdOffer` -/

@[simp] theorem holdOffer_cfg (w : CmdWord) : (s.holdOffer w).cfg = s.cfg := rfl
@[simp] theorem holdOffer_phase (w : CmdWord) : (s.holdOffer w).phase = s.phase := rfl
@[simp] theorem holdOffer_lcode (w : CmdWord) : (s.holdOffer w).lcode = s.lcode := rfl
@[simp] theorem holdOffer_rcode (w : CmdWord) : (s.holdOffer w).rcode = s.rcode := rfl
@[simp] theorem holdOffer_pay (w : CmdWord) : (s.holdOffer w).pay = s.pay := rfl
@[simp] theorem holdOffer_res (w : CmdWord) : (s.holdOffer w).res = s.res := rfl
@[simp] theorem holdOffer_csLevel (w : CmdWord) : (s.holdOffer w).csLevel = s.csLevel := rfl
@[simp] theorem holdOffer_muteLevel (w : CmdWord) : (s.holdOffer w).muteLevel = s.muteLevel := rfl
@[simp] theorem holdOffer_setL (w : CmdWord) : (s.holdOffer w).setL = s.setL := rfl
@[simp] theorem holdOffer_setR (w : CmdWord) : (s.holdOffer w).setR = s.setR := rfl
@[simp] theorem holdOffer_events (w : CmdWord) : (s.holdOffer w).events = s.events := rfl
@[simp] theorem holdOffer_wire (w : CmdWord) : (s.holdOffer w).wire = s.wire := rfl
@[simp] theorem holdOffer_mapIn (w : CmdWord) : (s.holdOffer w).mapIn = s.mapIn := rfl
@[simp] theorem holdOffer_host (w : CmdWord) : (s.holdOffer w).host = .command w true :: s.host := rfl
@[simp] theorem holdOffer_ser (w : CmdWord) : (s.holdOffer w).ser = s.ser := rfl
@[simp] theorem holdOffer_draws (w : CmdWord) : (s.holdOffer w).draws = s.draws := rfl

/-! ### `putLevel`, per line -/

@[simp] theorem putLevel_cs_cfg (v : Level) : (s.putLevel .cs v).cfg = s.cfg := rfl
@[simp] theorem putLevel_cs_phase (v : Level) : (s.putLevel .cs v).phase = s.phase := rfl
@[simp] theorem putLevel_cs_lcode (v : Level) : (s.putLevel .cs v).lcode = s.lcode := rfl
@[simp] theorem putLevel_cs_rcode (v : Level) : (s.putLevel .cs v).rcode = s.rcode := rfl
@[simp] theorem putLevel_cs_pay (v : Level) : (s.putLevel .cs v).pay = s.pay := rfl
@[simp] theorem putLevel_cs_res (v : Level) : (s.putLevel .cs v).res = s.res := rfl
@[simp] theorem putLevel_cs_csLevel (v : Level) : (s.putLevel .cs v).csLevel = some v := rfl
@[simp] theorem putLevel_cs_muteLevel (v : Level) : (s.putLevel .cs v).muteLevel = s.muteLevel := rfl
@[simp] theorem putLevel_cs_setL (v : Level) : (s.putLevel .cs v).setL = s.setL := rfl
@[simp] theorem putLevel_cs_setR (v : Level) : (s.putLevel .cs v).setR = s.setR := rfl
@[simp] theorem putLevel_cs_events (v : Level) : (s.putLevel .cs v).events = s.events := rfl
@[simp] theorem putLevel_cs_wire (v : Level) : (s.putLevel .cs v).wire = s.wire := rfl
@[simp] theorem putLevel_cs_mapIn (v : Level) : (s.putLevel .cs v).mapIn = s.mapIn := rfl
@[simp] theorem putLevel_cs_host (v : Level) : (s.putLevel .cs v).host = s.host := rfl
@[simp] theorem putLevel_cs_ser (v : Level) : (s.putLevel .cs v).ser = s.ser := rfl
@[simp] theorem putLevel_cs_draws (v : Level) : (s.putLevel .cs v).draws = s.draws := rfl
@[simp] theorem putLevel_mute_cfg (v : Level) : (s.putLevel .mute v).cfg = s.cfg := rfl
@[simp] theorem putLevel_mute_phase (v : Level) : (s.putLevel .mute v).phase = s.phase := rfl
@[simp] theorem putLevel_mute_lcode (v : Level) : (s.putLevel .mute v).lcode = s.lcode := rfl
@[simp] theorem putLevel_mute_rcode (v : Level) : (s.putLevel .mute v).rcode = s.rcode := rfl
@[simp] theorem putLevel_mute_pay (v : Level) : (s.putLevel .mute v).pay = s.pay := rfl
@[simp] theorem putLevel_mute_res (v : Level) : (s.putLevel .mute v).res = s.res := rfl
@[simp] theorem putLevel_mute_csLevel (v : Level) : (s.putLevel .mute v).csLevel = s.csLevel := rfl
@[simp] theorem putLevel_mute_muteLevel (v : Level) : (s.putLevel .mute v).muteLevel = some v := rfl
@[simp] theorem putLevel_mute_setL (v : Level) : (s.putLevel .mute v).setL = s.setL := rfl
@[simp] theorem putLevel_mute_setR (v : Level) : (s.putLevel .mute v).setR = s.setR := rfl
@[simp] theorem putLevel_mute_events (v : Level) : (s.putLevel .mute v).events = s.events := rfl
@[simp] theorem putLevel_mute_wire (v : Level) : (s.putLevel .mute v).wire = s.wire := rfl
@[simp] theorem putLevel_mute_mapIn (v : Level) : (s.putLevel .mute v).mapIn = s.mapIn := rfl
@[simp] theorem putLevel_mute_host (v : Level) : (s.putLevel .mute v).host = s.host := rfl
@[simp] theorem putLevel_mute_ser (v : Level) : (s.putLevel .mute v).ser = s.ser := rfl
@[simp] theorem putLevel_mute_draws (v : Level) : (s.putLevel .mute v).draws = s.draws := rfl

/-! ### `emitLevel`, per line -/

@[simp] theorem emitLevel_cs_cfg (v : Level) : (s.emitLevel .cs v).cfg = s.cfg := rfl
@[simp] theorem emitLevel_cs_phase (v : Level) : (s.emitLevel .cs v).phase = s.phase := rfl
@[simp] theorem emitLevel_cs_lcode (v : Level) : (s.emitLevel .cs v).lcode = s.lcode := rfl
@[simp] theorem emitLevel_cs_rcode (v : Level) : (s.emitLevel .cs v).rcode = s.rcode := rfl
@[simp] theorem emitLevel_cs_pay (v : Level) : (s.emitLevel .cs v).pay = s.pay := rfl
@[simp] theorem emitLevel_cs_res (v : Level) : (s.emitLevel .cs v).res = s.res := rfl
@[simp] theorem emitLevel_cs_csLevel (v : Level) : (s.emitLevel .cs v).csLevel = some v := rfl
@[simp] theorem emitLevel_cs_muteLevel (v : Level) : (s.emitLevel .cs v).muteLevel = s.muteLevel := rfl
@[simp] theorem emitLevel_cs_setL (v : Level) : (s.emitLevel .cs v).setL = s.setL := rfl
@[simp] theorem emitLevel_cs_setR (v : Level) : (s.emitLevel .cs v).setR = s.setR := rfl
@[simp] theorem emitLevel_cs_events (v : Level) : (s.emitLevel .cs v).events = s.events ++ [.setLevel .cs v] := rfl
@[simp] theorem emitLevel_cs_wire (v : Level) : (s.emitLevel .cs v).wire = s.wire := rfl
@[simp] theorem emitLevel_cs_mapIn (v : Level) : (s.emitLevel .cs v).mapIn = s.mapIn := rfl
@[simp] theorem emitLevel_cs_host (v : Level) : (s.emitLevel .cs v).host = s.host := rfl
@[simp] theorem emitLevel_cs_ser (v : Level) : (s.emitLevel .cs v).ser = s.ser := rfl
@[simp] theorem emitLevel_cs_draws (v : Level) : (s.emitLevel .cs v).draws = s.draws := rfl
@[simp] theorem emitLevel_mute_cfg (v : Level) : (s.emitLevel .mute v).cfg = s.cfg := rfl
@[simp] theorem emitLevel_mute_phase (v : Level) : (s.emitLevel .mute v).phase = s.phase := rfl
@[simp] theorem emitLevel_mute_lcode (v : Level) : (s.emitLevel .mute v).lcode = s.lcode := rfl
@[simp] theorem emitLevel_mute_rcode (v : Level) : (s.emitLevel .mute v).rcode = s.rcode := rfl
@[simp] theorem emitLevel_mute_pay (v : Level) : (s.emitLevel .mute v).pay = s.pay := rfl
@[simp] theorem emitLevel_mute_res (v : Level) : (s.emitLevel .mute v).res = s.res := rfl
@[simp] theorem emitLevel_mute_csLevel (v : Level) : (s.emitLevel .mute v).csLevel = s.csLevel := rfl
@[simp] theorem emitLevel_mute_muteLevel (v : Level) : (s.emitLevel .mute v).muteLevel = some v := rfl
@[simp] theorem emitLevel_mute_setL (v : Level) : (s.emitLevel .mute v).setL = s.setL := rfl
@[simp] theorem emitLevel_mute_setR (v : Level) : (s.emitLevel .mute v).setR = s.setR := rfl
@[simp] theorem emitLevel_mute_events (v : Level) : (s.emitLevel .mute v).events = s.events ++ [.setLevel .mute v] := rfl
@[simp] theorem emitLevel_mute_wire (v : Level) : (s.emitLevel .mute v).wire = s.wire := rfl
@[simp] theorem emitLevel_mute_mapIn (v : Level) : (s.emitLevel .mute v).mapIn = s.mapIn := rfl
@[simp] theorem emitLevel_mute_host (v : Level) : (s.emitLevel .mute v).host = s.host := rfl
@[simp] theorem emitLevel_mute_ser (v : Level) : (s.emitLevel .mute v).ser = s.ser := rfl
@[simp] theorem emitLevel_mute_draws (v : Level) : (s.emitLevel .mute v).draws = s.draws := rfl

/-! ### `reportAnswer` -/

@[simp] theorem reportAnswer_cfg (a : XferAnswer) : (s.reportAnswer a).cfg = s.cfg := by cases a <;> rfl
@[simp] theorem reportAnswer_phase (a : XferAnswer) : (s.reportAnswer a).phase = s.phase := by cases a <;> rfl
@[simp] theorem reportAnswer_lcode (a : XferAnswer) : (s.reportAnswer a).lcode = s.lcode := by cases a <;> rfl
@[simp] theorem reportAnswer_rcode (a : XferAnswer) : (s.reportAnswer a).rcode = s.rcode := by cases a <;> rfl
@[simp] theorem reportAnswer_pay (a : XferAnswer) : (s.reportAnswer a).pay = s.pay := by cases a <;> rfl
@[simp] theorem reportAnswer_res (a : XferAnswer) : (s.reportAnswer a).res = s.res := by cases a <;> rfl
@[simp] theorem reportAnswer_csLevel (a : XferAnswer) : (s.reportAnswer a).csLevel = s.csLevel := by cases a <;> rfl
@[simp] theorem reportAnswer_muteLevel (a : XferAnswer) : (s.reportAnswer a).muteLevel = s.muteLevel := by cases a <;> rfl
@[simp] theorem reportAnswer_setL (a : XferAnswer) : (s.reportAnswer a).setL = s.setL := by cases a <;> rfl
@[simp] theorem reportAnswer_setR (a : XferAnswer) : (s.reportAnswer a).setR = s.setR := by cases a <;> rfl
@[simp] theorem reportAnswer_events (a : XferAnswer) :
    (s.reportAnswer a).events = s.events ++ [.done (answerResult a)] := by cases a <;> rfl
@[simp] theorem reportAnswer_wire (a : XferAnswer) : (s.reportAnswer a).wire = s.wire := by cases a <;> rfl
@[simp] theorem reportAnswer_mapIn (a : XferAnswer) : (s.reportAnswer a).mapIn = s.mapIn := by cases a <;> rfl
@[simp] theorem reportAnswer_host (a : XferAnswer) : (s.reportAnswer a).host = s.host := by cases a <;> rfl
@[simp] theorem reportAnswer_ser (a : XferAnswer) : (s.reportAnswer a).ser = s.ser := by cases a <;> rfl
@[simp] theorem reportAnswer_draws (a : XferAnswer) : (s.reportAnswer a).draws = s.draws := by cases a <;> rfl

end State
end Sys2Proof.Machine
end

