-- ==== Sys2Proof/Laws/Ops.lean ====
section
/-! SUPPORT. What each shared operation can do, said once. -/

namespace Sys2Proof.Machine

/-! ### Going on and stopping -/

@[simp] theorem orFault_ok {α : Type} (v : α) (k : α → Answer) : orFault (.ok v) k = k v := rfl

@[simp] theorem orFault_error {α : Type} (f : Fault) (k : α → Answer) : orFault (.error f) k = .fault f := rfl

/-- An `orFault` that goes on had a value to go on with. -/
theorem orFault_eq_next {α : Type} {r : Except Fault α} {k : α → Answer} {t : State} (h : orFault r k = .next t) :
    ∃ v, r = .ok v ∧ k v = .next t := by
  cases r with
  | ok v => exact ⟨v, rfl, h⟩
  | error f => cases h

@[simp] theorem readLatch_some {α : Type} (v : α) (k : α → Answer) : readLatch (some v) k = k v := rfl

@[simp] theorem readLatch_none {α : Type} (k : α → Answer) : readLatch none k = .fault .noValue := rfl

/-- A latch read that goes on had a value. -/
theorem readLatch_eq_next {α : Type} {latch : Option α} {k : α → Answer} {t : State}
    (h : readLatch latch k = .next t) : ∃ v, latch = some v ∧ k v = .next t := by
  cases latch with
  | some v => exact ⟨v, rfl, h⟩
  | none => cases h

/-! ### BUSY and acceptance -/

theorem busy_iff (s : State) : s.busy = true ↔ s.phase ≠ .idle := by simp [State.busy]

theorem cmdReady_iff (s : State) : s.cmdReady = true ↔ s.phase = .idle := by simp [State.cmdReady, State.busy]

theorem accept_of_idle {w : CmdWord} {s : State} {k : State → Answer} (h : s.phase = .idle) :
    accept w s k = k s := by simp [accept, State.busy, h]

theorem accept_of_busy {w : CmdWord} {s : State} {k : State → Answer} (h : s.phase ≠ .idle) :
    accept w s k = .next (s.holdOffer w) := by simp [accept, State.busy, h]

/-- A command is performed in IDLE and waits in every other phase. -/
theorem accept_eq_next {w : CmdWord} {s t : State} {k : State → Answer} (h : accept w s k = .next t) :
    (s.phase = .idle ∧ k s = .next t) ∨ (s.phase ≠ .idle ∧ t = s.holdOffer w) := by
  by_cases hp : s.phase = .idle
  · exact .inl ⟨hp, accept_of_idle (k := k) hp ▸ h⟩
  · rw [accept_of_busy hp] at h
    cases h
    exact .inr ⟨hp, rfl⟩

/-! ### The payload buffer -/

theorem Payload.lookup_insert_self (m : Payload) (a : Nat) (v : Code) : Payload.lookup (Payload.insert m a v) a = some v := by
  induction m with
  | nil => simp [Payload.insert, Payload.lookup]
  | cons x rest ih =>
    obtain ⟨b, u⟩ := x
    by_cases h1 : a < b
    · simp [Payload.insert, h1, Payload.lookup]
    · by_cases h2 : a = b
      · simp [Payload.insert, h2, Payload.lookup]
      · simp [Payload.insert, h1, h2, Payload.lookup, ih, Ne.symm h2]

theorem Payload.lookup_insert_other (m : Payload) {a b : Nat} (v : Code) (h : b ≠ a) :
    Payload.lookup (Payload.insert m a v) b = Payload.lookup m b := by
  induction m with
  | nil => simp [Payload.insert, Payload.lookup, Ne.symm h]
  | cons x rest ih =>
    obtain ⟨c, u⟩ := x
    by_cases h1 : a < c
    · simp [Payload.insert, h1, Payload.lookup, Ne.symm h]
    · by_cases h2 : a = c
      · subst h2; simp [Payload.insert, Payload.lookup, Ne.symm h]
      · simp [Payload.insert, h1, h2, Payload.lookup, ih]

theorem Payload.mem_insert {m : Payload} {a : Nat} {v : Code} {x : Host.Cell} (h : x ∈ Payload.insert m a v) :
    x = (a, v) ∨ x ∈ m := by
  induction m with
  | nil => simpa [Payload.insert] using h
  | cons y rest ih =>
    obtain ⟨b, u⟩ := y
    by_cases h1 : a < b
    · simpa [Payload.insert, h1] using h
    · by_cases h2 : a = b
      · subst h2
        simp only [Payload.insert, lt_irrefl, if_false, if_true, List.mem_cons] at h
        exact h.imp_right (List.mem_cons_of_mem _)
      · simp only [Payload.insert, h1, h2, if_false, List.mem_cons] at h
        rcases h with h | h
        · exact .inr (by simp [h])
        · exact (ih h).imp_right (List.mem_cons_of_mem _)

/-- A write inside PAY's two addresses keeps the canonical form. -/
theorem Payload.wf_insert {m : Payload} {a : Nat} (v : Code) (hm : Payload.wf m = true) (ha : a < 2) :
    Payload.wf (Payload.insert m a v) = true := by
  simp only [Payload.wf, Bool.and_eq_true, decide_eq_true_eq, List.all_eq_true] at hm ⊢
  obtain ⟨hs, hb⟩ := hm
  refine ⟨?_, fun x hx => ?_⟩
  · clear hb
    induction m with
    | nil => simp [Payload.insert]
    | cons y rest ih =>
      obtain ⟨b, u⟩ := y
      rw [List.pairwise_cons] at hs
      by_cases h1 : a < b
      · simp only [Payload.insert, h1, if_true, List.pairwise_cons]
        refine ⟨fun z hz => ?_, hs.1, hs.2⟩
        rcases List.mem_cons.1 hz with rfl | hz
        · exact h1
        · exact lt_trans h1 (hs.1 z hz)
      · by_cases h2 : a = b
        · simp only [Payload.insert, h2, lt_irrefl, if_false, if_true, List.pairwise_cons]
          exact ⟨hs.1, hs.2⟩
        · simp only [Payload.insert, h1, h2, if_false, List.pairwise_cons]
          refine ⟨fun z hz => ?_, ih hs.2⟩
          rcases Payload.mem_insert hz with rfl | hz
          · simp only; omega
          · exact hs.1 z hz
  · rcases Payload.mem_insert hx with rfl | hx
    · exact ha
    · exact hb x hx

/-- Everything a one-byte write can do. -/
theorem memWriteByte_eq_ok {a : Nat} {v : Code} {s t : State} (h : memWriteByte a v s = .ok t) :
    a < 2 ∧ t = { s with pay := Payload.insert s.pay a v } := by
  unfold memWriteByte at h
  split at h
  · cases h; exact ⟨‹_›, rfl⟩
  · cases h

/-- Everything a two-byte write can do. -/
theorem memWritePair_eq_ok {a : Nat} {w : BitVec 16} {s t : State} (h : memWritePair a w s = .ok t) :
    a = 0 ∧ t = { s with pay := Payload.insert (Payload.insert s.pay 0 (w.extractLsb' 0 8)) 1 (w.extractLsb' 8 8) } := by
  unfold memWritePair at h
  split at h
  · cases h; exact ⟨‹_›, rfl⟩
  · cases h

/-- Everything a one-byte read can answer. -/
theorem memReadByte_eq_ok {a : Nat} {v : Code} {s : State} (h : memReadByte a s = .ok v) :
    a < 2 ∧ Payload.lookup s.pay a = some v := by
  unfold memReadByte at h
  split at h
  · refine ⟨‹_›, ?_⟩
    split at h
    · cases h; assumption
    · cases h
  · cases h

theorem memWriteByte_wf {a : Nat} {v : Code} {s t : State} (h : memWriteByte a v s = .ok t)
    (hs : Payload.wf s.pay = true) : Payload.wf t.pay = true := by
  obtain ⟨ha, rfl⟩ := memWriteByte_eq_ok h
  exact Payload.wf_insert v hs ha

theorem memWritePair_wf {a : Nat} {w : BitVec 16} {s t : State} (h : memWritePair a w s = .ok t)
    (hs : Payload.wf s.pay = true) : Payload.wf t.pay = true := by
  obtain ⟨-, rfl⟩ := memWritePair_eq_ok h
  exact Payload.wf_insert _ (Payload.wf_insert _ hs (by decide)) (by decide)

theorem clearLatches_wf (s : State) : Payload.wf s.clearLatches.pay = true := rfl

theorem reset_wf : Payload.wf State.reset.pay = true := rfl

/-! ### SER -/

/-- Every TX_STATUS is read as one of the three answers. -/
theorem readStatus_cases (t : BitVec 2) :
    (t = 0 ∧ readStatus t = .success) ∨ (t = 1 ∧ readStatus t = .timeout) ∨
      ((t = 2 ∨ t = 3) ∧ readStatus t = .error) := by
  revert t; decide

theorem clockedBits_isPrefix (r : SerReply) (b0 b1 : Code) :
    clockedBits r b0 b1 <+: byteBits b0 ++ byteBits b1 := by
  unfold clockedBits
  split
  · exact List.prefix_rfl
  · exact List.take_prefix _ _

/-! ### The steps of the sequencer -/

/-- Everything the latching of the two codes can do. -/
theorem latchCodes_eq (a b : Word32) (s : State) (k : State → Answer) :
    latchCodes a b s k =
      k { s with
          lcode := some (gainCode s.cfg a), rcode := some (gainCode s.cfg b)
          pay := Payload.insert (Payload.insert s.pay 0 (gainCode s.cfg a)) 1 (gainCode s.cfg b) } := rfl

/-- Everything the step out of S_XFER can do. -/
theorem stepXfer_eq_next {s t : State} (h : stepXfer s = .next t) :
    ∃ b0 b1, Payload.lookup s.pay 0 = some b0 ∧ Payload.lookup s.pay 1 = some b1 ∧
      t = ((s.emitTransmit b0 b1).setRes s.serAnswer).setPhase .sHold := by
  obtain ⟨b0, h0, h⟩ := orFault_eq_next h
  obtain ⟨b1, h1, h⟩ := orFault_eq_next h
  cases h
  exact ⟨b0, b1, (memReadByte_eq_ok h0).2, (memReadByte_eq_ok h1).2, rfl⟩

/-- Everything the settling of the ghost codes can do before it goes on. -/
theorem settleGhost_eq_next {a : XferAnswer} {s t : State} {k : State → Answer} (h : settleGhost a s k = .next t) :
    (∃ l r, a = .success ∧ s.lcode = some l ∧ s.rcode = some r ∧ k (s.setGhost (some l) (some r)) = .next t) ∨
      (a ≠ .success ∧ k (s.setGhost none none) = .next t) := by
  cases a with
  | success =>
    obtain ⟨l, hl, h⟩ := readLatch_eq_next h
    obtain ⟨r, hr, h⟩ := readLatch_eq_next h
    exact .inl ⟨l, r, rfl, hl, hr, h⟩
  | timeout => exact .inr ⟨by decide, h⟩
  | error => exact .inr ⟨by decide, h⟩

/-- Everything the step out of S_RELEASE can do. -/
theorem stepRelease_eq_next {s t : State} (h : stepRelease s = .next t) :
    ∃ a gl gr, s.res = some a ∧
      ((a = .success ∧ s.lcode = gl ∧ s.rcode = gr ∧ gl.isSome ∧ gr.isSome) ∨
        (a ≠ .success ∧ gl = none ∧ gr = none)) ∧
      t = ((((s.emitLevel .cs s.cfg.csActiveLevel.inverse).reportAnswer a).setGhost gl gr).clearLatches).setPhase
        .idle := by
  obtain ⟨a, ha, h⟩ := readLatch_eq_next h
  rcases settleGhost_eq_next h with ⟨l, r, hs, hl, hr, h⟩ | ⟨hs, h⟩
  · refine ⟨a, some l, some r, ha, .inl ⟨hs, ?_, ?_, rfl, rfl⟩, ?_⟩
    · simpa using hl
    · simpa using hr
    · cases h; rfl
  · refine ⟨a, none, none, ha, .inr ⟨hs, rfl, rfl⟩, ?_⟩
    cases h; rfl

/-! ### Event sequences -/

theorem protocolRun_append (c : Config) (es : List Event) (e : Event) :
    protocolRun c (es ++ [e]) = (protocolRun c es).bind fun q => protocolStep c q e := by
  simp [protocolRun]

theorem protocolRun_append_two (c : Config) (es : List Event) (e f : Event) :
    protocolRun c (es ++ [e, f]) =
      ((protocolRun c es).bind fun q => protocolStep c q e).bind fun q => protocolStep c q f := by
  simp [protocolRun]

@[simp] theorem protocolRun_nil (c : Config) : protocolRun c [] = some .rest := rfl

@[simp] theorem lastLevel_nil (l : Line) : lastLevel l [] = none := rfl

theorem lastLevel_append (l : Line) (es : List Event) (e : Event) :
    lastLevel l (es ++ [e]) =
      match e with
      | .setLevel l' v => if l' = l then some v else lastLevel l es
      | _ => lastLevel l es := by
  unfold lastLevel
  rw [List.foldl_append]
  cases e <;> rfl

theorem lastLevel_append_two (l : Line) (es : List Event) (e f : Event) :
    lastLevel l (es ++ [e, f]) =
      match f with
      | .setLevel l' v => if l' = l then some v else lastLevel l (es ++ [e])
      | _ => lastLevel l (es ++ [e]) := by
  rw [show es ++ [e, f] = es ++ [e] ++ [f] by simp]
  exact lastLevel_append l (es ++ [e]) f

end Sys2Proof.Machine
end

