-- ==== Sys2Proof/Laws/PerInstr.lean ====
section
/-! SUPPORT. Per instruction: the word it encodes to matches its own row of the opcode table (30_encoding.md R72, R87). -/

namespace Sys2Proof.Laws

open Sys2Proof

/-- Masking a command word with an OP mask keeps OP's masked bits and nothing else. -/
theorem commandWord_and_mask (op mask : BitVec 8) (a b : Word32) :
    commandWord op a b &&& commandWord mask 0 0 = commandWord (op &&& mask) 0 0 := by
  change (op ++ a ++ b) &&& (mask ++ (0 : Word32) ++ (0 : Word32)) = (op &&& mask) ++ (0 : Word32) ++ (0 : Word32)
  rw [BitVec.and_append, BitVec.and_append, show a &&& 0 = 0 from BitVec.and_zero, show b &&& 0 = 0 from BitVec.and_zero]

/-- A row matches a command word as soon as its OP byte does. -/
theorem matchesWord_of_op {r : OpRow} {op : BitVec 8} (a b : Word32) (h : op &&& r.opMask = r.opMatch) :
    r.matchesWord (commandWord op a b) = true := by
  unfold OpRow.matchesWord
  rw [commandWord_and_mask, h]
  exact beq_self_eq_true _

/-- A row of this name matches this port word; MAP's row has mask 0 and matches every word of the map port (R73). -/
def rowMatches (name : String) : PortWord → Prop
  | .mapPort _ => name = "MAP"
  | .commandPort w => ∃ r ∈ commandRows, r.mnemonic = name ∧ r.matchesWord w = true

def MatchesItsRow.Statement (i : Instr) : Prop := i.wellFormed = true → rowMatches i.mnemonic (encode i)

theorem MatchesItsRow.map (w : Word32) : MatchesItsRow.Statement (.map w) := fun _ => rfl

theorem MatchesItsRow.mute (a b : Word32) : MatchesItsRow.Statement (.mute a b) := fun _ =>
  ⟨⟨"MUTE", 0x01, 0xFF⟩, by decide, rfl, matchesWord_of_op a b (by decide)⟩

theorem MatchesItsRow.unmute (a b : Word32) : MatchesItsRow.Statement (.unmute a b) := fun _ =>
  ⟨⟨"UNMUTE", 0x02, 0xFF⟩, by decide, rfl, matchesWord_of_op a b (by decide)⟩

theorem MatchesItsRow.setgain (a b : Word32) : MatchesItsRow.Statement (.setgain a b) := fun _ =>
  ⟨⟨"SETGAIN", 0x03, 0xFF⟩, by decide, rfl, matchesWord_of_op a b (by decide)⟩

theorem MatchesItsRow.illegal00 (a b : Word32) : MatchesItsRow.Statement (.illegal00 a b) := fun _ =>
  ⟨⟨"ILLEGAL_00", 0x00, 0xFF⟩, by decide, rfl, matchesWord_of_op a b (by decide)⟩

theorem MatchesItsRow.illegal04 (op : BitVec 8) (a b : Word32) : MatchesItsRow.Statement (.illegal04 op a b) := fun h =>
  ⟨⟨"ILLEGAL_04", 0x04, 0xFC⟩, by decide, rfl, matchesWord_of_op a b
    ((by decide : ∀ op : BitVec 8, opIn op 0x04 0x07 = true → op &&& 0xFC = 0x04) op h)⟩

theorem MatchesItsRow.illegal08 (op : BitVec 8) (a b : Word32) : MatchesItsRow.Statement (.illegal08 op a b) := fun h =>
  ⟨⟨"ILLEGAL_08", 0x08, 0xF8⟩, by decide, rfl, matchesWord_of_op a b
    ((by decide : ∀ op : BitVec 8, opIn op 0x08 0x0F = true → op &&& 0xF8 = 0x08) op h)⟩

theorem MatchesItsRow.illegal10 (op : BitVec 8) (a b : Word32) : MatchesItsRow.Statement (.illegal10 op a b) := fun h =>
  ⟨⟨"ILLEGAL_10", 0x10, 0xF0⟩, by decide, rfl, matchesWord_of_op a b
    ((by decide : ∀ op : BitVec 8, opIn op 0x10 0x1F = true → op &&& 0xF0 = 0x10) op h)⟩

theorem MatchesItsRow.illegal20 (op : BitVec 8) (a b : Word32) : MatchesItsRow.Statement (.illegal20 op a b) := fun h =>
  ⟨⟨"ILLEGAL_20", 0x20, 0xE0⟩, by decide, rfl, matchesWord_of_op a b
    ((by decide : ∀ op : BitVec 8, opIn op 0x20 0x3F = true → op &&& 0xE0 = 0x20) op h)⟩

theorem MatchesItsRow.illegal40 (op : BitVec 8) (a b : Word32) : MatchesItsRow.Statement (.illegal40 op a b) := fun h =>
  ⟨⟨"ILLEGAL_40", 0x40, 0xC0⟩, by decide, rfl, matchesWord_of_op a b
    ((by decide : ∀ op : BitVec 8, opIn op 0x40 0x7F = true → op &&& 0xC0 = 0x40) op h)⟩

theorem MatchesItsRow.illegal80 (op : BitVec 8) (a b : Word32) : MatchesItsRow.Statement (.illegal80 op a b) := fun h =>
  ⟨⟨"ILLEGAL_80", 0x80, 0x80⟩, by decide, rfl, matchesWord_of_op a b
    ((by decide : ∀ op : BitVec 8, opIn op 0x80 0xFF = true → op &&& 0x80 = 0x80) op h)⟩

end Sys2Proof.Laws
end

