-- ==== Sys2Proof/Laws/Step.lean ====
section
/-! SUPPORT. What the meanings, the sequencer, one step and several steps can do, said once. -/

namespace Sys2Proof.Machine

/-! ### Several steps -/

@[simp] theorem steps_zero (s : State) : steps 0 s = .next s := rfl

/-- A run whose first step goes on is the rest of the run from there. -/
theorem steps_succ_of_next {s u : State} (n : Nat) (h : step s = .next u) : steps (n + 1) s = steps n u := by
  simp only [steps, h]

@[simp] theorem steps_one (s : State) : steps 1 s = step s := by
  simp only [steps]
  cases step s <;> rfl

/-- A run that goes on went on at its first step. -/
theorem steps_succ_eq_next {s t : State} {n : Nat} (h : steps (n + 1) s = .next t) :
    ∃ u, step s = .next u ∧ steps n u = .next t := by
  simp only [steps] at h
  split at h
  · exact ⟨_, ‹_›, h⟩
  · cases h
  · cases h

/-! ### The sequencer -/

/-- Everything a step of CTRL can do, phase by phase. -/
theorem advance_eq_next {s t : State} (h : advance s = .next t) :
    (s.phase = .idle ∧ t = s) ∨
    (s.phase = .sAssert ∧ t = (s.emitLevel .cs s.cfg.csActiveLevel).setPhase .sSetup) ∨
    (s.phase = .sSetup ∧ t = (s.emitDelay s.cfg.tSetupMs).setPhase .sXfer) ∨
    (s.phase = .sXfer ∧ ∃ b0 b1, Payload.lookup s.pay 0 = some b0 ∧ Payload.lookup s.pay 1 = some b1 ∧
      t = ((s.emitTransmit b0 b1).setRes s.serAnswer).setPhase .sHold) ∨
    (s.phase = .sHold ∧ t = (s.emitDelay s.cfg.tHoldMs).setPhase .sRelease) ∨
    (s.phase = .sRelease ∧ ∃ a gl gr, s.res = some a ∧
      ((a = .success ∧ s.lcode = gl ∧ s.rcode = gr ∧ gl.isSome ∧ gr.isSome) ∨
        (a ≠ .success ∧ gl = none ∧ gr = none)) ∧
      t = ((((s.emitLevel .cs s.cfg.csActiveLevel.inverse).reportAnswer a).setGhost gl gr).clearLatches).setPhase
        .idle) := by
  unfold advance at h
  split at h
  · cases h; exact .inl ⟨‹_›, rfl⟩
  · cases h; exact .inr (.inl ⟨‹_›, rfl⟩)
  · cases h; exact .inr (.inr (.inl ⟨‹_›, rfl⟩))
  · exact .inr (.inr (.inr (.inl ⟨‹_›, stepXfer_eq_next h⟩)))
  · cases h; exact .inr (.inr (.inr (.inr (.inl ⟨‹_›, rfl⟩))))
  · exact .inr (.inr (.inr (.inr (.inr ⟨‹_›, stepRelease_eq_next h⟩))))

/-! ### The meanings -/

/-- Everything an instruction can do: a MAP drives MAP_IN; a command waits while the block is busy; in IDLE it writes
the mute line and reports, latches the two codes, or raises IllegalCmd. -/
theorem exec_eq_next {i : Instr} {s t : State} (h : exec i s = .next t) :
    (∃ w, i = .map w ∧ t = s.driveMapIn w) ∨
    (s.phase ≠ .idle ∧ ∃ w, t = s.holdOffer w) ∨
    (s.phase = .idle ∧ ((∃ a b, i = .mute a b) ∨ ∃ a b, i = .unmute a b) ∧
      ∃ v, t = (s.emitLevel .mute v).report .ok) ∨
    (s.phase = .idle ∧ ∃ a b, i = .setgain a b ∧ t =
      { s with
        lcode := some (gainCode s.cfg a), rcode := some (gainCode s.cfg b)
        pay := Payload.insert (Payload.insert s.pay 0 (gainCode s.cfg a)) 1 (gainCode s.cfg b), phase := .sAssert }) ∨
    (s.phase = .idle ∧ ∃ op, t = s.raiseFailure (.illegalCmd op)) := by
  cases i with
  | map w => cases h; exact .inl ⟨w, rfl, rfl⟩
  | mute a b =>
    rcases accept_eq_next h with ⟨hp, h⟩ | ⟨hp, rfl⟩
    · cases h; exact .inr (.inr (.inl ⟨hp, .inl ⟨a, b, rfl⟩, _, rfl⟩))
    · exact .inr (.inl ⟨hp, _, rfl⟩)
  | unmute a b =>
    rcases accept_eq_next h with ⟨hp, h⟩ | ⟨hp, rfl⟩
    · cases h; exact .inr (.inr (.inl ⟨hp, .inr ⟨a, b, rfl⟩, _, rfl⟩))
    · exact .inr (.inl ⟨hp, _, rfl⟩)
  | setgain a b =>
    simp only [exec, execSetgain] at h
    rcases accept_eq_next h with ⟨hp, h⟩ | ⟨hp, rfl⟩
    · rw [latchCodes_eq] at h
      cases h
      exact .inr (.inr (.inr (.inl ⟨hp, a, b, rfl, rfl⟩)))
    · exact .inr (.inl ⟨hp, _, rfl⟩)
  | _ =>
    simp only [exec, execIllegal00, execIllegal04, execIllegal08, execIllegal10, execIllegal20, execIllegal40,
      execIllegal80, illegalCommand] at h
    rcases accept_eq_next h with ⟨hp, h⟩ | ⟨hp, rfl⟩
    · cases h; exact .inr (.inr (.inr (.inr ⟨hp, _, rfl⟩)))
    · exact .inr (.inl ⟨hp, _, rfl⟩)

/-! ### One step -/

/-- Everything a step is: an instruction run, or CTRL's move, from the state in which HOST has made its move. -/
theorem step_cases (s : State) :
    ∃ h, (step s = advance (s.setHost h) ∨ (∃ w, step s = exec (.map w) (s.setHost h)) ∨
      (s.phase = .idle ∧ ∃ w, step s = exec (decodeCommand w) (s.setHost h))) := by
  unfold step fetch
  cases hh : s.host with
  | nil => exact ⟨s.host, .inl rfl⟩
  | cons m rest =>
    cases m with
    | quiet => exact ⟨rest, .inl rfl⟩
    | mapIn w => exact ⟨rest, .inr (.inl ⟨w, rfl⟩)⟩
    | command w keep =>
      by_cases hp : s.phase = .idle
      · refine ⟨rest, .inr (.inr ⟨hp, w, ?_⟩)⟩
        simp only [(cmdReady_iff s).2 hp, if_true]
        rfl
      · have hr : s.cmdReady = false := by simpa [← cmdReady_iff] using hp
        cases keep
        · exact ⟨rest, .inl (by simp [hr])⟩
        · exact ⟨s.host, .inl (by simp [hr]; rfl)⟩

end Sys2Proof.Machine
end

