-- ==== Sys2Proof/Tests/Slice0.lean ====
section
/-! SUPPORT. The author's own tests. Expected results come from `spec/`: 95_test_vectors.md where it has a vector, else
the rule named in the comment. Then, for each statement with hypotheses, a state and operands that meet them. -/

namespace Sys2Proof.Tests

open Sys2Proof Sys2Proof.Machine

/-! ### Well-formedness: an ill-formed term for each check, and the bounds of each range (R87) -/

theorem test_wellFormed_refuses_illegal04 :
    Instr.wellFormed (.illegal04 0x03 0 0) = false ∧ Instr.wellFormed (.illegal04 0x08 0 0) = false := by decide
theorem test_wellFormed_refuses_illegal08 :
    Instr.wellFormed (.illegal08 0x07 0 0) = false ∧ Instr.wellFormed (.illegal08 0x10 0 0) = false := by decide
theorem test_wellFormed_refuses_illegal10 :
    Instr.wellFormed (.illegal10 0x0F 0 0) = false ∧ Instr.wellFormed (.illegal10 0x20 0 0) = false := by decide
theorem test_wellFormed_refuses_illegal20 :
    Instr.wellFormed (.illegal20 0x1F 0 0) = false ∧ Instr.wellFormed (.illegal20 0x40 0 0) = false := by decide
theorem test_wellFormed_refuses_illegal40 :
    Instr.wellFormed (.illegal40 0x3F 0 0) = false ∧ Instr.wellFormed (.illegal40 0x80 0 0) = false := by decide
theorem test_wellFormed_refuses_illegal80 : Instr.wellFormed (.illegal80 0x7F 0 0) = false := by decide
theorem test_wellFormed_accepts_bounds :
    Instr.wellFormed (.illegal04 0x04 0 0) = true ∧ Instr.wellFormed (.illegal04 0x07 0 0) = true ∧
    Instr.wellFormed (.illegal40 0x40 0 0) = true ∧ Instr.wellFormed (.illegal80 0xFF 0 0) = true := by decide

/-! ### Decoding, one word per constructor, written out as OP, A, B (R71 to R74, R87) -/

theorem test_decode_map : decodeTableWord 32 0xC23E0000 = some (.map 0xC23E0000) := by decide
theorem test_decode_mute : decodeTableWord 72 0x01FFFFFFFFFFFFFFFF = some (.mute 0xFFFFFFFF 0xFFFFFFFF) := by decide
theorem test_decode_unmute : decodeTableWord 72 0x02000000010000000F = some (.unmute 0x00000001 0x0000000F) := by decide
theorem test_decode_setgain :
    decodeTableWord 72 0x03C0C00000C0D00000 = some (.setgain 0xC0C00000 0xC0D00000) := by decide
theorem test_decode_illegal00 : decodeTableWord 72 0x000000000000000000 = some (.illegal00 0 0) := by decide
theorem test_decode_illegal04 : decodeTableWord 72 0x070000000100000002 = some (.illegal04 0x07 1 2) := by decide
theorem test_decode_illegal08 : decodeTableWord 72 0x0A0000000100000002 = some (.illegal08 0x0A 1 2) := by decide
theorem test_decode_illegal10 : decodeTableWord 72 0x100000000100000002 = some (.illegal10 0x10 1 2) := by decide
theorem test_decode_illegal20 : decodeTableWord 72 0x3F0000000100000002 = some (.illegal20 0x3F 1 2) := by decide
theorem test_decode_illegal40 :
    decodeTableWord 72 0x7F42480000C2C80000 = some (.illegal40 0x7F 0x42480000 0xC2C80000) := by decide
theorem test_decode_illegal80 :
    decodeTableWord 72 0xFFFFFFFFFFFFFFFFFF = some (.illegal80 0xFF 0xFFFFFFFF 0xFFFFFFFF) := by decide
theorem test_decode_rejects_by_name :
    portWordOfTable 64 0 = .error (.noFormat 64) ∧ portWordOfTable 32 (2 ^ 32) = .error (.tooWide 32 (2 ^ 32)) := by
  decide

/-! ### MAP: the vectors M1 to M39, X, Y and Z -/

/-- M1 to M15. -/
theorem test_map_vectors_low :
    [0x00000000, 0x80000000, 0x3F000000, 0xBF000000, 0x3F800000, 0xBF800000, 0x3E800000, 0xBE800000, 0xC0C00000,
      0xC0D00000, 0xC1200000, 0xC23E0000, 0x41200000, 0x41F80000, 0x41FC0000].map (gainCode Config.default) =
    [192, 192, 193, 191, 194, 190, 192, 191, 180, 179, 172, 97, 212, 254, 255] := by decide +kernel
/-- M16 to M28. -/
theorem test_map_vectors_ends :
    [0x41FBFFFF, 0x41FC0001, 0x41FE0000, 0x42000000, 0x42FF0000, 0xC2BE0000, 0xC2BF0000, 0xC2BF0001, 0xC2BF8000,
      0xC2C00000, 0xC2C08000, 0xC2C10000, 0xC2C80000].map (gainCode Config.default) =
    [254, 255, 255, 255, 255, 2, 1, 0, 0, 0, 0, 0, 0] := by decide +kernel
/-- M29 to M39. -/
theorem test_map_vectors_special :
    [0x7F7FFFFF, 0xFF7FFFFF, 0x00000001, 0x80000001, 0x007FFFFF, 0x00800000, 0x7F800000, 0xFF800000, 0x7FC00000,
      0x7F800001, 0xFFC00001].map (gainCode Config.default) =
    [255, 0, 192, 191, 192, 192, 255, 0, 0, 0, 0] := by decide +kernel

/-- Configuration X of 95_test_vectors.md section 2.2, vectors X1 to X10. -/
theorem test_map_negative_slope :
    [0x00000000, 0x41200000, 0x3E800000, 0xBE800000, 0x41FC0000, 0x41FE0000, 0xC2C00000, 0xC2C08000, 0x7F800000,
      0xFF800000].map (gainCode { Config.default with slope := 0xC0000000, offset := 0x427C0000 }) =
    [63, 43, 62, 63, 0, 0, 255, 255, 0, 255] := by decide +kernel
/-- Configuration Y, vectors Y1 to Y8. -/
theorem test_map_fractional_offset :
    [0x00000000, 0x3F800000, 0x3FC00000, 0x40600000, 0xC3488000, 0xC3490000, 0x439AC000, 0x439B0000].map
      (gainCode { Config.default with slope := 0x3F000000, offset := 0x42C88000 }) =
    [100, 100, 101, 102, 0, 0, 255, 255] := by decide +kernel
/-- Configuration Z. -/
theorem test_map_nan_code : gainCode { Config.default with nanCode := 255 } 0x7FC00000 = 255 := by decide

/-! ### Configuration records: the refused ones and their nearest accepted neighbours (95_test_vectors.md section 2.2) -/

theorem test_config_refuses_slope :
    [0x00000000, 0x80000000, 0x7F800000, 0x7FC00000, 0x00000001].map
      (fun w => legalConfig { Config.default with slope := w }) = [false, false, false, false, true] := by decide
theorem test_config_refuses_offset :
    [0x7F800000, 0x7FC00000, 0x00000000].map
      (fun w => legalConfig { Config.default with offset := w }) = [false, false, true] := by decide
theorem test_config_refuses_zero_times :
    legalConfig { Config.default with tSetupMs := 0 } = false ∧ legalConfig { Config.default with tHoldMs := 0 } = false ∧
    legalConfig { Config.default with timeoutMs := 0 } = false ∧
    legalConfig { Config.default with timeoutMs := 1 } = true := by decide
theorem test_config_refuses_wide_nan_code :
    legalConfig { Config.default with nanCode := 256 } = false ∧
    legalConfig { Config.default with nanCode := 255 } = true := by decide

/-! ### The commands, each one step -/

/-- The events a step ends with, when it goes on. -/
def eventsOf : Answer → List Event
  | .next s => s.events
  | _ => []

/-- The idle machine with one command offered. -/
def offering (c : Config) (w : CmdWord) : State := { State.init c with host := [.command w true] }

/-- MU1. -/
theorem test_mute_events :
    eventsOf (step (offering Config.default 0x010000000000000000)) = [.setLevel .mute .low, .done .ok] := by decide
/-- MU5. -/
theorem test_mute_polarity :
    eventsOf (step (offering { Config.default with muteMutingLevel := .high } 0x010000000000000000)) =
      [.setLevel .mute .high, .done .ok] := by decide
/-- MU2. -/
theorem test_unmute_events :
    eventsOf (step (offering Config.default 0x020000000000000000)) = [.setLevel .mute .high, .done .ok] := by decide
/-- MU6. -/
theorem test_unmute_polarity :
    eventsOf (step (offering { Config.default with muteMutingLevel := .high } 0x020000000000000000)) =
      [.setLevel .mute .low, .done .ok] := by decide

/-- Step 1 of the phase trace of SG3. -/
theorem test_setgain_accept : step (offering Config.default 0x03C0C00000C0D00000) =
    .next { State.reset with
      phase := .sAssert, lcode := some 0xB4, rcode := some 0xB3, pay := [(0, 0xB4), (1, 0xB3)] } := by rfl
/-- R71: a SETGAIN handed over while busy waits. -/
theorem test_setgain_waits : exec (.setgain 0 0) { State.reset with phase := .sHold } =
    .next { State.reset with phase := .sHold, host := [.command 0x030000000000000000 true] } := by rfl

/-- I1. -/
theorem test_illegal00 :
    eventsOf (step (offering Config.default 0x000000000000000000)) = [.done .illegalCmd] := by decide
/-- I2. -/
theorem test_illegal04 :
    eventsOf (step (offering Config.default 0x040000000000000000)) = [.done .illegalCmd] := by decide
/-- R74. -/
theorem test_illegal08 :
    eventsOf (step (offering Config.default 0x0F0000000000000000)) = [.done .illegalCmd] := by decide
/-- R74. -/
theorem test_illegal10 :
    eventsOf (step (offering Config.default 0x1F0000000000000000)) = [.done .illegalCmd] := by decide
/-- R74. -/
theorem test_illegal20 :
    eventsOf (step (offering Config.default 0x200000000000000000)) = [.done .illegalCmd] := by decide
/-- I3. -/
theorem test_illegal40 :
    eventsOf (step (offering Config.default 0x7F42480000C2C80000)) = [.done .illegalCmd] := by decide
/-- I4. -/
theorem test_illegal80 :
    eventsOf (step (offering Config.default 0xFFFFFFFFFFFFFFFFFF)) = [.done .illegalCmd] := by decide

/-- S3: MAP 50.0, here while a SETGAIN is in progress (R73: in every phase). -/
theorem test_map_step : step (State.withFetchWord { State.reset with phase := .sXfer } 32 0x42480000) =
    .next { State.reset with phase := .sXfer, mapIn := 0x42480000 } ∧
    State.mapOut { State.reset with mapIn := 0x42480000 } = 255 := ⟨rfl, by decide⟩

/-! ### The sequencer: steps 2 to 6 of the phase trace of SG3 and of SG9 to SG11 -/

/-- The SETGAIN -6.0, -6.5 in progress, with what SER will answer. -/
def inProgress (p : Phase) (res : Option XferAnswer) (ser : List SerReply) : State :=
  { State.reset with
    phase := p, lcode := some 0xB4, rcode := some 0xB3, pay := [(0, 0xB4), (1, 0xB3)], res := res
    csLevel := if p = .sAssert then none else some .low, ser := ser }

theorem test_sequencer_assert : eventsOf (step (inProgress .sAssert none [])) = [.setLevel .cs .low] := by decide
theorem test_sequencer_setup : eventsOf (step (inProgress .sSetup none [])) = [.delay 1] := by decide
theorem test_sequencer_xfer_success : eventsOf (step (inProgress .sXfer none [⟨0, 0⟩])) =
    [.transmit 0xB4 0xB3 2 1000 .success] := by decide
/-- SG9, SG10, SG11: status 1, 2 and 3. -/
theorem test_sequencer_xfer_failures :
    [1, 2, 3].map (fun t => eventsOf (step (inProgress .sXfer none [⟨t, 0⟩]))) =
      [[.transmit 0xB4 0xB3 2 1000 .timeout], [.transmit 0xB4 0xB3 2 1000 .error],
        [.transmit 0xB4 0xB3 2 1000 .error]] := by decide
theorem test_sequencer_hold : eventsOf (step (inProgress .sHold (some .timeout) [])) = [.delay 1] := by decide
/-- SG3: the codes are set and the latches empty. -/
theorem test_sequencer_release_success : step (inProgress .sRelease (some .success) []) =
    .next { State.reset with
      csLevel := some .high, setL := some 180, setR := some 179
      events := [.setLevel .cs .high, .done .ok] } := by rfl
/-- SG9. -/
theorem test_sequencer_release_timeout : step (inProgress .sRelease (some .timeout) []) =
    .next { State.reset with csLevel := some .high, events := [.setLevel .cs .high, .done .xferTimeout] } := by rfl
/-- "Wire bits of SG3 for a bit-level model": 1011 0100 1011 0011. -/
theorem test_wire_bits : clockedBits ⟨0, 0⟩ 0xB4 0xB3 =
    [true, false, true, true, false, true, false, false, true, false, true, true, false, false, true, true] := by decide
/-- R165: three bits of a failed transfer. -/
theorem test_wire_prefix : clockedBits ⟨1, 3⟩ 0xB4 0xB3 = [true, false, true] := by decide
/-- R71: a word that is withdrawn while the block is busy is gone, and the sequencer goes on. -/
theorem test_withdrawn_offer :
    step { inProgress .sHold (some .success) [] with host := [.command 0x010000000000000000 false] } =
      .next { inProgress .sRelease (some .success) [] with events := [.delay 1] } := by rfl

/-! ### Ports and assembler -/

/-- R79, R52: left code in the low byte. -/
theorem test_pulse_transmit : (Event.transmit 0xB4 0xB3 2 1000 .success).pulse = .txReq 0xB3B4 2 1000 := by decide
/-- R80, R78. -/
theorem test_pulse_others :
    (Event.setLevel .mute .high).pulse = .lineWr 1 1 ∧ (Event.done .xferError).pulse = .doneValid 2 := by decide
/-- The words beside the literals of 95_test_vectors.md: -47.5, -0.25, 31.5, -0.0, 12.0. -/
theorem test_literals :
    [AsmOperand.decimal true 475 1, .decimal true 25 2, .decimal false 315 1, .decimal true 0 1,
      .decimal false 120 1].map AsmOperand.word =
      [0xC23E0000, 0xBE800000, 0x41FC0000, 0x80000000, 0x41400000] := by decide
/-- R84, ties to even: 2^24 + 1 stands halfway between two words, and goes down to 2^24. -/
theorem test_literal_tie : (AsmOperand.decimal false 16777217 0).word = 0x4B800000 := by decide
/-- SG7: SETGAIN nan, +inf. -/
theorem test_assemble : assemble (.setgain .nan .posInf) = .commandPort 0x037FC000007F800000 := by decide

/-! ### Witnesses: the hypotheses of each statement are met, clause by clause -/

theorem reset_inv : State.reset.Inv :=
  ⟨by decide, by decide, ⟨rfl, rfl, rfl, rfl⟩, by simp [State.chipSelectFits, State.reset, State.init], rfl⟩

theorem reset_goodRun : State.reset.GoodRun := ⟨reset_inv, ⟨rfl, rfl⟩, rfl, rfl⟩

theorem inProgress_assert_inv (h : List HostMove) : State.Inv { inProgress .sAssert none [] with host := h } :=
  ⟨show legalConfig Config.default = true by decide, rfl, ⟨⟨_, _, rfl, rfl, rfl⟩, rfl⟩,
    by simp [State.chipSelectFits, inProgress], rfl⟩

theorem inProgress_xfer_inv : (inProgress .sXfer none []).Inv :=
  ⟨by decide, by decide, ⟨⟨_, _, rfl, rfl, rfl⟩, rfl⟩, rfl, rfl⟩

theorem inProgress_release_inv (h : List HostMove) :
    State.Inv { inProgress .sRelease (some .error) [] with host := h } :=
  ⟨show legalConfig Config.default = true by decide, rfl, ⟨⟨_, _, rfl, rfl, rfl⟩, _, rfl⟩, rfl, rfl⟩

/-- A good run in the middle of a SETGAIN, with a delay among its events. -/
def afterLeadingDelay : State :=
  { inProgress .sXfer none [] with events := [.setLevel .cs .low, .delay 1] }

theorem afterLeadingDelay_goodRun : afterLeadingDelay.GoodRun :=
  ⟨⟨by decide, by decide, ⟨⟨_, _, rfl, rfl, rfl⟩, rfl⟩, rfl, rfl⟩, ⟨by decide, by decide⟩, by decide, by decide⟩

theorem witness_EncodedInstructionsDecodeBack :
    Instr.wellFormed (.map 0) = true ∧ Instr.wellFormed (.setgain 1 2) = true ∧
      Instr.wellFormed (.illegal80 0x80 1 2) = true := by decide
theorem witness_ExactLiteralsAssembleToTheirValue : dec32Q 0x41400000 = .finite (((120 : Nat) : ℚ) / 10 ^ 1) := by
  have sign : (0x41400000 : BitVec 32).extractLsb' 31 1 = 0 := by decide
  have exponent : ((0x41400000 : BitVec 32).extractLsb' 23 8).toNat = 130 := by decide
  have significand : ((0x41400000 : BitVec 32).extractLsb' 0 23).toNat = 4194304 := by decide
  simp only [dec32Q, sign, exponent, significand]
  norm_num
theorem witness_StepRunsTheDecodedInstruction :
    encode (.map 5) = .mapPort 5 ∧ State.host { State.reset with host := [.mapIn 5] } = [.mapIn 5] ∧
      encode (.mute 0 0) = .commandPort 0x010000000000000000 ∧
      (offering Config.default 0x010000000000000000).host = [.command 0x010000000000000000 true] ∧
      (offering Config.default 0x010000000000000000).phase = .idle := by decide
theorem witness_PlacedTableWordRunsNext :
    decodeTableWord 32 0 = some (.map 0) ∧ decodeTableWord 72 (2 ^ 72 - 1) =
      some (.illegal80 0xFF 0xFFFFFFFF 0xFFFFFFFF) := by decide
theorem witness_SequencerMovesWhenNothingIsAccepted :
    State.reset.host = [] ∧ State.host { State.reset with host := [.quiet] } = [.quiet] ∧
      (∃ s : State, s.host = [.command 0 true] ∧ s.phase ≠ .idle) ∧
      ∃ s : State, s.host = [.command 0 false] ∧ s.phase ≠ .idle :=
  ⟨rfl, rfl, ⟨{ inProgress .sAssert none [] with host := [.command 0 true] }, rfl, by decide⟩,
    ⟨{ inProgress .sAssert none [] with host := [.command 0 false] }, rfl, by decide⟩⟩
theorem witness_CommandsWaitWhileTheBlockIsBusy :
    encode (.unmute 0 0) = .commandPort 0x020000000000000000 ∧ (inProgress .sRelease none []).phase ≠ .idle := by decide
theorem witness_MuteWritesTheMutingLevelAndReportsOk :
    cmdOp 0x01FFFFFFFFFFFFFFFF = 0x01 ∧ State.reset.phase = .idle := by decide
theorem witness_UnmuteWritesThePassthroughLevelAndReportsOk :
    cmdOp 0x020000000000000000 = 0x02 ∧ State.reset.phase = .idle := by decide
theorem witness_SetgainLatchesBothCodesAndStartsTheSequence :
    cmdOp 0x03C0C00000C0D00000 = 0x03 ∧ State.reset.phase = .idle ∧ Payload.wf State.reset.pay = true := by decide
theorem witness_EveryReservedRowReportsIllegalCommandOnly : State.reset.phase = .idle := rfl
theorem witness_AcceptedReservedOpcodeIsAnIllegalCommand :
    cmdOp 0x040000000000000000 ≠ 0x01 ∧ cmdOp 0x040000000000000000 ≠ 0x02 ∧ cmdOp 0x040000000000000000 ≠ 0x03 ∧
      State.reset.phase = .idle := by decide
theorem witness_AssertStepSelectsTheChip : (inProgress .sAssert none []).phase = .sAssert := rfl
theorem witness_DelayStepsEmitTheirOwnDelay :
    (inProgress .sSetup none []).phase = .sSetup ∧ (inProgress .sHold (some .error) []).phase = .sHold := by decide
theorem witness_TransferStepSendsThePayloadAndLatchesTheAnswer :
    (inProgress .sXfer none [⟨0, 0⟩]).phase = .sXfer ∧
      Payload.lookup (inProgress .sXfer none [⟨0, 0⟩]).pay 0 = some 0xB4 ∧
      Payload.lookup (inProgress .sXfer none [⟨0, 0⟩]).pay 1 = some 0xB3 ∧
      (inProgress .sXfer none [⟨0, 0⟩]).serAnswer = .success := by decide
theorem witness_ReleaseStepDeselectsReportsAndClears :
    (inProgress .sRelease (some .success) []).phase = .sRelease ∧
      (inProgress .sRelease (some .success) []).res = some .success ∧
      (inProgress .sRelease (some .timeout) []).res = some .timeout ∧
      (inProgress .sRelease (some .success) []).lcode = some 0xB4 ∧
      (inProgress .sRelease (some .success) []).rcode = some 0xB3 := by decide
theorem witness_SerStatusIsReadAsItsAnswer : (inProgress .sXfer none [⟨3, 0⟩]).ser = [⟨3, 0⟩] := rfl

/-- One state for the statements about a whole SETGAIN: nothing further offered, and a kept offer behind it. The same
state serves SetgainEmitsExactlyItsSixEvents, SixStepsRefineTheWholeSetgain, EveryAnswerEndsWithTheChipReleased,
OperandsLeaveNoTraceInTheBlock, EachOperandReachesItsOwnByteOnly, TransmittedBytesDependOnOperandsAndRecordOnly (with
itself as the second state) and EveryAcceptedCommandReportsOneResult. -/
theorem witness_whole_setgain :
    (offering Config.default (commandWord 0x03 0xC0C00000 0xC0D00000)).Inv ∧
      (offering Config.default (commandWord 0x03 0xC0C00000 0xC0D00000)).phase = .idle ∧
      (offering Config.default (commandWord 0x03 0xC0C00000 0xC0D00000)).host =
        [.command (commandWord 0x03 0xC0C00000 0xC0D00000) true] ∧
      State.hostKeepsOffer { State.reset with host := [] } ∧
      State.hostKeepsOffer { State.reset with host := [.command 0x010000000000000000 true] } :=
  ⟨reset_inv, rfl, rfl, .inl rfl, .inr ⟨_, _, rfl⟩⟩
/-- The answers the two clauses of EveryAnswerEndsWithTheChipReleased speak of. -/
theorem witness_both_answers :
    State.serAnswer { State.reset with ser := [⟨0, 16⟩] } = .success ∧
      State.serAnswer { State.reset with ser := [⟨1, 0⟩] } ≠ .success := by decide
theorem witness_EveryAcceptedCommandReportsOneResult :
    State.reset.phase = .idle ∧ cmdOp 0x010000000000000000 ≠ 0x03 ∧ cmdOp 0x040000000000000000 ≠ 0x03 := by decide
/-- The first and the last busy phase. -/
theorem witness_MuteOfferedDuringASetgainWaitsForItsDone :
    State.Inv { inProgress .sAssert none [] with host := [.command (commandWord 0x01 0 0) true] } ∧
      (inProgress .sAssert none []).phase ≠ .idle ∧
      State.Inv { inProgress .sRelease (some .error) [] with host := [.command (commandWord 0x01 0 0) true] } ∧
      (inProgress .sRelease (some .error) []).phase ≠ .idle :=
  ⟨inProgress_assert_inv _, by decide, inProgress_release_inv _, by decide⟩
theorem witness_EverySequenceEndsWithinFiveSteps :
    State.Inv { inProgress .sAssert none [] with host := [] } ∧
      State.hostKeepsOffer { inProgress .sAssert none [] with host := [] } := ⟨inProgress_assert_inv _, .inl rfl⟩
theorem witness_EveryStepKeepsTheInvariant :
    (inProgress .sXfer none []).Inv ∧ ∃ t, step (inProgress .sXfer none []) = .next t :=
  ⟨inProgress_xfer_inv, _, rfl⟩
theorem witness_NoStepFromAGoodStateStops : (inProgress .sXfer none []).Inv := inProgress_xfer_inv
theorem witness_EveryStepKeepsTheProtocol :
    afterLeadingDelay.GoodRun ∧ ∃ t, step afterLeadingDelay = .next t := ⟨afterLeadingDelay_goodRun, _, rfl⟩
theorem witness_legal_records :
    legalConfig Config.default = true ∧
      legalConfig { Config.default with slope := 0xC0000000, offset := 0x427C0000 } = true := by decide
/-- A state about to release chip-select, with the events that led there. -/
def beforeRelease : State :=
  { inProgress .sRelease (some .error) [] with
    events := [.setLevel .cs .low, .delay 1, .transmit 0xB4 0xB3 2 1000 .error, .delay 1] }

theorem witness_ChipSelectIsReleasedAtRest :
    beforeRelease.GoodRun ∧ (∃ t, step beforeRelease = .next t ∧ t.phase = .idle) ∧
      ∃ t, steps 1 { State.init Config.default with host := [.command 0 true] } = .next t ∧ t.phase = .idle :=
  ⟨⟨⟨by decide, by decide, ⟨⟨_, _, rfl, rfl, rfl⟩, _, rfl⟩, rfl, rfl⟩, ⟨by decide, by decide⟩, by decide, by decide⟩,
    ⟨_, rfl, rfl⟩, ⟨_, rfl, rfl⟩⟩
/-- In S_SETUP the step adds the delay. -/
theorem witness_NoRunHasAZeroDelay :
    (inProgress .sSetup none []).Inv ∧ (∀ ms, Event.delay ms ∈ (inProgress .sSetup none []).events → 0 < ms ∧ ms < 2 ^ 16) ∧
      (∃ t, step (inProgress .sSetup none []) = .next t ∧ Event.delay 1 ∈ t.events) ∧
      ∃ t, steps 3 { State.init Config.default with host := [.command 0x030000000000000000 true] } = .next t ∧
        Event.delay 1 ∈ t.events :=
  ⟨⟨by decide, by decide, ⟨⟨_, _, rfl, rfl, rfl⟩, rfl⟩, rfl, rfl⟩, fun _ h => by simp [inProgress, State.reset, State.init] at h,
    ⟨_, rfl, by decide⟩, ⟨_, rfl, by decide⟩⟩
/-- For NoStepChangesTheConfiguration, EveryStepOnlyAppendsEvents and both ways of GhostCodesChangeOnlyAtRelease. -/
theorem witness_step_answers :
    (∃ t, step (inProgress .sAssert none []) = .next t ∧ (inProgress .sAssert none []).phase ≠ .sRelease) ∧
      ∃ t, step { inProgress .sRelease (some .success) [] with host := [.mapIn 0] } = .next t ∧ t.phase ≠ .idle :=
  ⟨⟨_, rfl, by decide⟩, ⟨_, rfl, by decide⟩⟩
theorem witness_SetgainLeavesTheMuteLineAlone :
    (∃ t, exec (.setgain 0 0) State.reset = .next t) ∧ ∃ t, advance (inProgress .sXfer none []) = .next t :=
  ⟨⟨_, rfl⟩, ⟨_, rfl⟩⟩
theorem witness_OnlySetgainUsesTheBus :
    (∀ a b, (.mute 0 0 : Instr) ≠ .setgain a b) ∧ ∃ t, exec (.mute 0 0) State.reset = .next t :=
  ⟨fun _ _ => by simp, _, rfl⟩
theorem witness_MapCommutesWithTheSequencer : ∃ t, advance (inProgress .sXfer none []) = .next t := ⟨_, rfl⟩
theorem witness_ConstructionRefusesExactlyTheIllegalRecords :
    ∀ t, construct { Config.default with tHoldMs := 0 } ≠ .next t := by
  intro t h
  rw [show construct { Config.default with tHoldMs := 0 } = .refused .illegalConfig by rfl] at h
  cases h
theorem witness_LaterResetKeepsTheLineLevels :
    (inProgress .sSetup none []).Inv ∧ (inProgress .sXfer none []).Inv ∧
      (inProgress .sHold (some .timeout) []).Inv ∧ (inProgress .sRelease (some .error) []).Inv :=
  ⟨⟨by decide, by decide, ⟨⟨_, _, rfl, rfl, rfl⟩, rfl⟩, rfl, rfl⟩, inProgress_xfer_inv,
    ⟨by decide, by decide, ⟨⟨_, _, rfl, rfl, rfl⟩, _, rfl⟩, rfl, rfl⟩, inProgress_release_inv []⟩
theorem witness_PayloadAccessesAreLittleEndianAndBounded : (1 : Nat) < 2 ∧ (0 : Nat) ≠ 1 ∧ 2 ≤ (2 : Nat) ∧ (1 : Nat) ≠ 0 := by
  decide
theorem witness_NanOperandGivesTheNanCode :
    legalConfig Config.default = true ∧ dec32Q 0x7FC00000 = .nan ∧ State.reset.cfg = Config.default :=
  ⟨by decide, by simp [dec32Q], rfl⟩
/-- Both signs of SLOPE, for InfiniteOperandsSaturateBySlopeSign, GainCodeIsMonotonic and SaturationThresholdsAreExact. -/
theorem witness_slope_signs : configValue 0x40000000 > 0 ∧ configValue 0xC0000000 < 0 := by
  constructor <;> simp [configValue, dec32Q]
/-- The least and the greatest subnormal. -/
theorem witness_ZerosAndSubnormalsAreExact :
    expField 0x00000001 = 0 ∧ sigField 0x00000001 ≠ 0 ∧ expField 0x807FFFFF = 0 ∧ sigField 0x807FFFFF ≠ 0 := by decide
theorem witness_GainCodeIsMonotonic :
    (dec32Q 0x00000000).atMost (dec32Q 0x7F800000) ∧ (dec32Q 0xFF800000).atMost (dec32Q 0x00000000) := by
  constructor <;> simp [dec32Q, DecodedQ.atMost]
theorem witness_SaturationThresholdsAreExact :
    legalConfig Config.default = true ∧ dec32Q 0x00000000 = .finite 0 := ⟨by decide, by simp [dec32Q]⟩
/-- SLOPE = 2, OFFSET = 192 and a finite operand. -/
theorem witness_DefaultMappingCountsHalfDecibelSteps :
    configValue 0x40000000 = 2 ∧ configValue 0x43400000 = 192 ∧ dec32Q 0x00000000 = .finite 0 := by
  refine ⟨?_, ?_, ?_⟩ <;> simp [configValue, dec32Q] <;> norm_num

end Sys2Proof.Tests
end

section
/-! The sequencer's moves as named states, what an accepted command does, and the statements of 00_scope.md: every
accepted command reports exactly one result (R7, R71), no step from a good state stops (R10, R31, R81), and a step
only appends events, at most two (R7, R60). -/

namespace Sys2Proof.Machine

/-! ### The state after each move of the sequencer -/

/-- The state in which an accepted SETGAIN leaves the block (R151). -/
def State.afterAccept (a b : Word32) (s : State) : State :=
  { s with
    lcode := some (gainCode s.cfg a), rcode := some (gainCode s.cfg b)
    pay := Payload.insert (Payload.insert s.pay 0 (gainCode s.cfg a)) 1 (gainCode s.cfg b)
    phase := .sAssert }

/-- Out of S_ASSERT (R152). -/
def State.afterAssert (s : State) : State := (s.emitLevel .cs s.cfg.csActiveLevel).setPhase .sSetup

/-- Out of S_SETUP (R153). -/
def State.afterSetup (s : State) : State := (s.emitDelay s.cfg.tSetupMs).setPhase .sXfer

/-- Out of S_XFER with these two payload bytes (R154). -/
def State.afterXfer (b0 b1 : Code) (s : State) : State :=
  ((s.emitTransmit b0 b1).setRes s.serAnswer).setPhase .sHold

/-- Out of S_HOLD (R155). -/
def State.afterHold (s : State) : State := (s.emitDelay s.cfg.tHoldMs).setPhase .sRelease

/-- Out of S_RELEASE with this answer in RES and these codes in LCODE and RCODE (R156, R161). -/
def State.afterRelease (a : XferAnswer) (l r : Code) (s : State) : State :=
  ((((s.emitLevel .cs s.cfg.csActiveLevel.inverse).reportAnswer a).setGhost
    (if a = .success then some l else none) (if a = .success then some r else none)).clearLatches).setPhase .idle

section Moves
variable (s : State) (x y : Word32) (a : XferAnswer) (l r : Code)

@[simp] theorem afterAccept_cfg : (s.afterAccept x y).cfg = s.cfg := rfl
@[simp] theorem afterAccept_events : (s.afterAccept x y).events = s.events := rfl
@[simp] theorem afterAccept_serAnswer : (s.afterAccept x y).serAnswer = s.serAnswer := rfl

@[simp] theorem afterAssert_cfg : s.afterAssert.cfg = s.cfg := rfl
@[simp] theorem afterAssert_events :
    s.afterAssert.events = s.events ++ [.setLevel .cs s.cfg.csActiveLevel] := rfl
@[simp] theorem afterAssert_serAnswer : s.afterAssert.serAnswer = s.serAnswer := rfl

@[simp] theorem afterSetup_cfg : s.afterSetup.cfg = s.cfg := rfl
@[simp] theorem afterSetup_events : s.afterSetup.events = s.events ++ [.delay s.cfg.tSetupMs.toNat] := rfl
@[simp] theorem afterSetup_serAnswer : s.afterSetup.serAnswer = s.serAnswer := rfl

@[simp] theorem afterXfer_cfg : (s.afterXfer l r).cfg = s.cfg := rfl
@[simp] theorem afterXfer_events :
    (s.afterXfer l r).events = s.events ++ [.transmit l r 2 s.cfg.timeoutMs.toNat s.serAnswer] := rfl

@[simp] theorem afterHold_cfg : s.afterHold.cfg = s.cfg := rfl
@[simp] theorem afterHold_events : s.afterHold.events = s.events ++ [.delay s.cfg.tHoldMs.toNat] := rfl

@[simp] theorem afterRelease_events :
    (s.afterRelease a l r).events =
      s.events ++ [.setLevel .cs s.cfg.csActiveLevel.inverse, .done (answerResult a)] :=
  (State.reportAnswer_events _ a).trans (List.append_assoc _ _ _)

end Moves

/-- The latches and the two payload bytes hold these codes (R31, R151). -/
def State.HoldsCodes (l r : Code) (s : State) : Prop :=
  s.lcode = some l ∧ s.rcode = some r ∧ Payload.lookup s.pay 0 = some l ∧ Payload.lookup s.pay 1 = some r

theorem State.codesLatched.holdsCodes {s : State} (h : s.codesLatched) : ∃ l r, s.HoldsCodes l r := by
  obtain ⟨l, r, hl, hr, hpay⟩ := h
  exact ⟨l, r, hl, hr, by rw [hpay]; rfl, by rw [hpay]; rfl⟩

theorem afterAccept_holdsCodes (a b : Word32) (s : State) :
    (s.afterAccept a b).HoldsCodes (gainCode s.cfg a) (gainCode s.cfg b) := by
  refine ⟨rfl, rfl, ?_, Payload.lookup_insert_self _ _ _⟩
  exact (Payload.lookup_insert_other _ _ (by decide)).trans (Payload.lookup_insert_self _ _ _)

/-! ### Where CTRL moves to in each phase -/

section Advance
variable {s : State} {a : XferAnswer} {l r : Code}

theorem advance_of_idle (hp : s.phase = .idle) : advance s = .next s := by
  simp only [advance, hp]

theorem advance_of_sAssert (hp : s.phase = .sAssert) : advance s = .next s.afterAssert := by
  simp only [advance, hp]; rfl

theorem advance_of_sSetup (hp : s.phase = .sSetup) : advance s = .next s.afterSetup := by
  simp only [advance, hp]; rfl

theorem memReadByte_of_lookup {n : Nat} {v : Code} (hn : n < 2) (h : Payload.lookup s.pay n = some v) :
    memReadByte n s = .ok v := by
  simp only [memReadByte, hn, if_true, h]

theorem advance_of_sXfer (hp : s.phase = .sXfer) (hc : s.HoldsCodes l r) :
    advance s = .next (s.afterXfer l r) := by
  obtain ⟨-, -, h0, h1⟩ := hc
  simp only [advance, hp, stepXfer, memReadByte_of_lookup (by decide) h0, memReadByte_of_lookup (by decide) h1,
    orFault_ok]
  rfl

theorem advance_of_sHold (hp : s.phase = .sHold) : advance s = .next s.afterHold := by
  simp only [advance, hp]; rfl

/-- The ghost codes are settled once the latches hold the two codes (R161). -/
theorem settleGhost_of_codes (hl : s.lcode = some l) (hr : s.rcode = some r) (k : State → Answer) :
    settleGhost a s k =
      k (s.setGhost (if a = .success then some l else none) (if a = .success then some r else none)) := by
  cases a with
  | success => simp [settleGhost, hl, hr]
  | timeout => rfl
  | error => rfl

theorem advance_of_sRelease (hp : s.phase = .sRelease) (hc : s.HoldsCodes l r) (ha : s.res = some a) :
    advance s = .next (s.afterRelease a l r) := by
  obtain ⟨hl, hr, -, -⟩ := hc
  simp only [advance, hp, stepRelease, ha, readLatch_some]
  rw [settleGhost_of_codes (l := l) (r := r) (by simpa using hl) (by simpa using hr)]
  rfl

/-- CTRL always has a move when the latches hold what the phase says (R10, R31). -/
theorem advance_completes (h : s.latchesFit) : ∃ t, advance s = .next t := by
  unfold State.latchesFit at h
  cases hp : s.phase <;> simp only [hp] at h
  case idle => exact ⟨_, advance_of_idle hp⟩
  case sAssert => exact ⟨_, advance_of_sAssert hp⟩
  case sSetup => exact ⟨_, advance_of_sSetup hp⟩
  case sXfer =>
    obtain ⟨hc, -⟩ := h
    obtain ⟨l, r, hc⟩ := hc.holdsCodes
    exact ⟨_, advance_of_sXfer hp hc⟩
  case sHold => exact ⟨_, advance_of_sHold hp⟩
  case sRelease =>
    obtain ⟨hc, a, ha⟩ := h
    obtain ⟨l, r, hc⟩ := hc.holdsCodes
    exact ⟨_, advance_of_sRelease hp hc ha⟩

end Advance

/-! ### What a command does when it is accepted -/

section Accepted
variable {s : State}

theorem exec_mute_of_idle (a b : Word32) (hp : s.phase = .idle) :
    exec (.mute a b) s = .next ((s.emitLevel .mute s.cfg.muteMutingLevel).report .ok) :=
  accept_of_idle hp

theorem exec_unmute_of_idle (a b : Word32) (hp : s.phase = .idle) :
    exec (.unmute a b) s = .next ((s.emitLevel .mute s.cfg.muteMutingLevel.inverse).report .ok) :=
  accept_of_idle hp

theorem exec_setgain_of_idle (a b : Word32) (hp : s.phase = .idle) :
    exec (.setgain a b) s = .next (s.afterAccept a b) := by
  simp only [exec, execSetgain, accept_of_idle hp, latchCodes_eq]
  rfl

theorem illegalCommand_of_idle (op : BitVec 8) (a b : Word32) (hp : s.phase = .idle) :
    illegalCommand op a b s = .next (s.raiseFailure (.illegalCmd op)) :=
  accept_of_idle hp

theorem decodeCommand_mute {w : CmdWord} (h : cmdOp w = 0x01) : decodeCommand w = .mute (cmdA w) (cmdB w) := by
  simp [decodeCommand, h]

theorem decodeCommand_unmute {w : CmdWord} (h : cmdOp w = 0x02) : decodeCommand w = .unmute (cmdA w) (cmdB w) := by
  simp [decodeCommand, h]

theorem decodeCommand_setgain {w : CmdWord} (h : cmdOp w = 0x03) : decodeCommand w = .setgain (cmdA w) (cmdB w) := by
  simp [decodeCommand, h]

/-- Whichever reserved row a word falls under, its meaning is the one of R193. -/
theorem exec_decodeCommand_reserved {w : CmdWord} (h1 : cmdOp w ≠ 0x01) (h2 : cmdOp w ≠ 0x02) (h3 : cmdOp w ≠ 0x03)
    (s : State) : exec (decodeCommand w) s = illegalCommand (cmdOp w) (cmdA w) (cmdB w) s := by
  simp only [decodeCommand, h1, h2, h3, if_false]
  split_ifs with h0
  · simp only [h0, exec, execIllegal00]
  all_goals rfl

theorem accept_completes {w : CmdWord} {k : State → Answer} (h : ∃ t, k s = .next t) :
    ∃ t, accept w s k = .next t := by
  by_cases hp : s.phase = .idle
  · rwa [accept_of_idle hp]
  · exact ⟨_, accept_of_busy hp⟩

theorem illegalCommand_completes (op : BitVec 8) (a b : Word32) (s : State) :
    ∃ t, illegalCommand op a b s = .next t :=
  accept_completes (by exact ⟨_, rfl⟩)

/-- Every instruction has a next state in every state: what R81 says of decoding holds of the meanings too. -/
theorem exec_completes (i : Instr) (s : State) : ∃ t, exec i s = .next t := by
  cases i with
  | map w => exact ⟨_, rfl⟩
  | mute a b => exact accept_completes (by exact ⟨_, rfl⟩)
  | unmute a b => exact accept_completes (by exact ⟨_, rfl⟩)
  | setgain a b =>
    simp only [exec, execSetgain, latchCodes_eq]
    exact accept_completes ⟨_, rfl⟩
  | _ => exact illegalCommand_completes _ _ _ s

end Accepted

/-! ### One step -/

section OneStep
variable {s : State}

/-- R71: in IDLE the offered word is taken up at once. -/
theorem step_of_offer {w : CmdWord} {keep : Bool} {rest : List HostMove} (hp : s.phase = .idle)
    (hh : s.host = .command w keep :: rest) : step s = exec (decodeCommand w) (s.setHost rest) := by
  simp only [step, fetch, hh, (cmdReady_iff s).2 hp, if_true]
  rfl

/-- R71, R157: while the block is busy a kept offer waits, and CTRL moves. -/
theorem step_of_busy (hp : s.phase ≠ .idle) (hk : s.hostKeepsOffer) : step s = advance s := by
  have hr : s.cmdReady = false := by simpa [← cmdReady_iff] using hp
  rcases hk with hh | ⟨w, rest, hh⟩
  · simp only [step, fetch, hh]
  · simp [step, fetch, hh, hr]

theorem step_completes (h : s.latchesFit) : ∃ t, step s = .next t := by
  obtain ⟨host, hs | ⟨w, hs⟩ | ⟨-, w, hs⟩⟩ := step_cases s <;> rw [hs]
  · exact advance_completes (s := s.setHost host) h
  · exact exec_completes _ _
  · exact exec_completes _ _

end OneStep

/-! ### The steps that lead a SETGAIN back to IDLE -/

section Sequence
variable {s : State} {a : XferAnswer} {l r : Code}

theorem steps_of_sRelease (hp : s.phase = .sRelease) (hk : s.hostKeepsOffer) (hc : s.HoldsCodes l r)
    (ha : s.res = some a) : steps 1 s = .next (s.afterRelease a l r) := by
  rw [steps_one, step_of_busy (by simp [hp]) hk, advance_of_sRelease hp hc ha]

theorem steps_of_sHold (hp : s.phase = .sHold) (hk : s.hostKeepsOffer) (hc : s.HoldsCodes l r)
    (ha : s.res = some a) : steps 2 s = .next (s.afterHold.afterRelease a l r) := by
  rw [steps_succ_of_next 1 ((step_of_busy (by simp [hp]) hk).trans (advance_of_sHold hp))]
  exact steps_of_sRelease rfl hk hc ha

theorem steps_of_sXfer (hp : s.phase = .sXfer) (hk : s.hostKeepsOffer) (hc : s.HoldsCodes l r) :
    steps 3 s = .next ((s.afterXfer l r).afterHold.afterRelease s.serAnswer l r) := by
  rw [steps_succ_of_next 2 ((step_of_busy (by simp [hp]) hk).trans (advance_of_sXfer hp hc))]
  exact steps_of_sHold rfl hk hc rfl

theorem steps_of_sSetup (hp : s.phase = .sSetup) (hk : s.hostKeepsOffer) (hc : s.HoldsCodes l r) :
    steps 4 s = .next ((s.afterSetup.afterXfer l r).afterHold.afterRelease s.serAnswer l r) := by
  rw [steps_succ_of_next 3 ((step_of_busy (by simp [hp]) hk).trans (advance_of_sSetup hp))]
  exact steps_of_sXfer rfl hk hc

theorem steps_of_sAssert (hp : s.phase = .sAssert) (hk : s.hostKeepsOffer) (hc : s.HoldsCodes l r) :
    steps 5 s = .next ((s.afterAssert.afterSetup.afterXfer l r).afterHold.afterRelease s.serAnswer l r) := by
  rw [steps_succ_of_next 4 ((step_of_busy (by simp [hp]) hk).trans (advance_of_sAssert hp))]
  exact steps_of_sSetup rfl hk hc

/-- The state six steps after the block takes up a SETGAIN, from the state in which HOST has made its move. -/
def State.afterSetgain (x y : Word32) (s : State) : State :=
  (((s.afterAccept x y).afterAssert.afterSetup.afterXfer (gainCode s.cfg x) (gainCode s.cfg y)).afterHold).afterRelease
    s.serAnswer (gainCode s.cfg x) (gainCode s.cfg y)

theorem steps_of_setgain_offer {x y : Word32} {keep : Bool} {rest : List HostMove} (hp : s.phase = .idle)
    (hh : s.host = .command (commandWord 0x03 x y) keep :: rest)
    (hk : State.hostKeepsOffer { s with host := rest }) :
    steps 6 s = .next ((s.setHost rest).afterSetgain x y) := by
  have hstep : step s = .next ((s.setHost rest).afterAccept x y) := by
    rw [step_of_offer hp hh, decodeCommand_setgain (cmdOp_commandWord _ _ _), cmdA_commandWord, cmdB_commandWord]
    exact exec_setgain_of_idle x y hp
  rw [steps_succ_of_next 5 hstep]
  exact steps_of_sAssert rfl hk (afterAccept_holdsCodes x y (s.setHost rest))

/-- R167: the six events of a SETGAIN. -/
theorem afterSetgain_events (x y : Word32) (s : State) :
    (s.afterSetgain x y).events = s.events ++
      [ .setLevel .cs s.cfg.csActiveLevel,
        .delay s.cfg.tSetupMs.toNat,
        .transmit (gainCode s.cfg x) (gainCode s.cfg y) 2 s.cfg.timeoutMs.toNat s.serAnswer,
        .delay s.cfg.tHoldMs.toNat,
        .setLevel .cs s.cfg.csActiveLevel.inverse,
        .done (answerResult s.serAnswer) ] := by
  simp [State.afterSetgain]

end Sequence

/-! ### Events and results -/

/-- The result an event reports to HOST, if it is a Done (R12). -/
def Event.reported : Event → Option Result
  | .done r => some r
  | _ => none

theorem State.results_eq (s : State) : s.results = s.events.filterMap Event.reported := rfl

theorem results_of_events {s t : State} {es : List Event} (h : t.events = s.events ++ es) :
    t.results = s.results ++ es.filterMap Event.reported := by
  rw [State.results_eq, State.results_eq, h, List.filterMap_append]

/-- The events of `t` are those of `s` and at most two more behind them. -/
def AppendsAtMostTwo (s t : State) : Prop := ∃ es, t.events = s.events ++ es ∧ es.length ≤ 2

theorem appendsAtMostTwo_of_eq {s t : State} (h : t.events = s.events) : AppendsAtMostTwo s t :=
  ⟨[], by simp [h], by simp⟩

theorem appendsAtMostTwo_of_one {s t : State} {e : Event} (h : t.events = s.events ++ [e]) : AppendsAtMostTwo s t :=
  ⟨[e], h, by simp⟩

theorem appendsAtMostTwo_of_two {s t : State} {e f : Event} (h : t.events = s.events ++ [e] ++ [f]) :
    AppendsAtMostTwo s t :=
  ⟨[e, f], by simp [h], by simp⟩

theorem advance_appendsAtMostTwo {s t : State} (h : advance s = .next t) : AppendsAtMostTwo s t := by
  rcases advance_eq_next h with ⟨-, rfl⟩ | ⟨-, rfl⟩ | ⟨-, rfl⟩ | ⟨-, b0, b1, -, -, rfl⟩ | ⟨-, rfl⟩ |
    ⟨-, a, gl, gr, -, -, rfl⟩
  · exact appendsAtMostTwo_of_eq rfl
  · exact appendsAtMostTwo_of_one rfl
  · exact appendsAtMostTwo_of_one rfl
  · exact appendsAtMostTwo_of_one rfl
  · exact appendsAtMostTwo_of_one rfl
  · exact appendsAtMostTwo_of_two (State.reportAnswer_events _ a)

theorem exec_appendsAtMostTwo {i : Instr} {s t : State} (h : exec i s = .next t) : AppendsAtMostTwo s t := by
  rcases exec_eq_next h with ⟨w, -, rfl⟩ | ⟨-, w, rfl⟩ | ⟨-, -, v, rfl⟩ | ⟨-, a, b, -, rfl⟩ | ⟨-, op, rfl⟩
  · exact appendsAtMostTwo_of_eq rfl
  · exact appendsAtMostTwo_of_eq rfl
  · exact appendsAtMostTwo_of_two rfl
  · exact appendsAtMostTwo_of_eq rfl
  · exact appendsAtMostTwo_of_one rfl

/-- HOST's move appends no event, so a step appends what the meaning or CTRL's move does. -/
theorem step_appendsAtMostTwo {s t : State} (h : step s = .next t) : AppendsAtMostTwo s t := by
  obtain ⟨host, hs | ⟨w, hs⟩ | ⟨-, w, hs⟩⟩ := step_cases s <;> rw [hs] at h
  · exact advance_appendsAtMostTwo (s := s.setHost host) h
  · exact exec_appendsAtMostTwo (s := s.setHost host) h
  · exact exec_appendsAtMostTwo (s := s.setHost host) h

/-! ### Results of accepted commands -/

theorem setgain_reports_its_answer {s : State} {x y : Word32} {keep : Bool} {rest : List HostMove}
    (hp : s.phase = .idle) (hh : s.host = .command (commandWord 0x03 x y) keep :: rest)
    (hk : State.hostKeepsOffer { s with host := rest }) :
    ∃ t, steps 6 s = .next t ∧ t.results = s.results ++ [answerResult s.serAnswer] :=
  ⟨_, steps_of_setgain_offer hp hh hk, results_of_events (afterSetgain_events x y (s.setHost rest))⟩

theorem results_of_muteWrite (s : State) (v : Level) :
    ((s.emitLevel .mute v).report .ok).results = s.results ++ [.ok] :=
  results_of_events (es := [.setLevel .mute v, .done .ok]) (List.append_assoc _ _ _)

/-- MUTE and UNMUTE report OK and a reserved OP reports ILLEGAL_CMD, each in the step that accepts it. -/
theorem exec_other_reports_once {s : State} {w : CmdWord} (hp : s.phase = .idle) (h3 : cmdOp w ≠ 0x03) :
    ∃ t, exec (decodeCommand w) s = .next t ∧
      t.results = s.results ++ [if cmdOp w = 0x01 ∨ cmdOp w = 0x02 then .ok else .illegalCmd] := by
  by_cases h1 : cmdOp w = 0x01
  · rw [decodeCommand_mute h1, if_pos (.inl h1)]
    exact ⟨_, exec_mute_of_idle _ _ hp, results_of_muteWrite s _⟩
  · by_cases h2 : cmdOp w = 0x02
    · rw [decodeCommand_unmute h2, if_pos (.inr h2)]
      exact ⟨_, exec_unmute_of_idle _ _ hp, results_of_muteWrite s _⟩
    · rw [exec_decodeCommand_reserved h1 h2 h3, if_neg (not_or.2 ⟨h1, h2⟩)]
      exact ⟨_, illegalCommand_of_idle _ _ _ hp, results_of_events (es := [.done .illegalCmd]) rfl⟩

end Sys2Proof.Machine

namespace Sys2Proof.Proofs

open Sys2Proof Sys2Proof.Machine

/-- Settles O28: the last of a SETGAIN's six events is its only Done, and every other command ends in the step that
accepts it with its one Done. -/
theorem everyAcceptedCommandReportsOneResult : Obligations.EveryAcceptedCommandReportsOneResult := by
  refine ⟨fun s a b rest _ hp hk => ?_, fun s w keep rest hp h3 => ?_⟩
  · exact setgain_reports_its_answer
      (s := { s with host := .command (commandWord 0x03 a b) true :: rest }) hp rfl hk
  · rw [step_of_offer (s := { s with host := .command w keep :: rest }) hp rfl]
    exact exec_other_reports_once
      (s := State.setHost rest { s with host := .command w keep :: rest }) hp h3

/-- Settles O33: a meaning never stops, and CTRL's move reads only latches that the phase says hold a value. -/
theorem noStepFromAGoodStateStops : Obligations.NoStepFromAGoodStateStops := by
  intro s hinv
  obtain ⟨-, -, hlatches, -, -⟩ := hinv
  exact step_completes hlatches

/-- Settles O39, by the cases of what CTRL's move and a meaning can do. -/
theorem everyStepOnlyAppendsEvents : Obligations.EveryStepOnlyAppendsEvents :=
  fun _ _ h => step_appendsAtMostTwo h

end Sys2Proof.Proofs
end

section
/-! The statements of 10_state.md. What the state invariant says phase by phase (R30, R31, R159, R161), that each move
of the block keeps it, that the events each move appends are the next ones of the protocol and write the lines (R34,
R157, R167), which configuration records are constructed (R20 to R25, R104, R130), and the codes of PHASE (R30). -/

namespace Sys2Proof.Machine

/-! ### The codes of PHASE -/

/-- The value of PHASE that a 3-bit pattern stands for; 6 and 7 stand for none (R30). -/
def Phase.ofBits (b : BitVec 3) : Option Phase :=
  if b = 0 then some .idle else if b = 1 then some .sAssert else if b = 2 then some .sSetup
  else if b = 3 then some .sXfer else if b = 4 then some .sHold else if b = 5 then some .sRelease else none

theorem Phase.ofBits_bits (p : Phase) : Phase.ofBits p.bits = some p := by cases p <;> rfl

theorem Phase.bits_injective {p q : Phase} (h : p.bits = q.bits) : p = q :=
  Option.some.inj <| calc
    some p = Phase.ofBits p.bits := p.ofBits_bits.symm
    _ = Phase.ofBits q.bits := by rw [h]
    _ = some q := q.ofBits_bits

theorem Phase.bits_ne_of_ofBits_none {b : BitVec 3} (h : Phase.ofBits b = none) (p : Phase) : p.bits ≠ b := by
  rintro rfl
  rw [Phase.ofBits_bits] at h
  cases h

/-! ### What the invariant says in each phase -/

section Phases
variable {s : State}

theorem latchesFit_of_idle (hp : s.phase = .idle) :
    s.latchesFit ↔ s.lcode = none ∧ s.rcode = none ∧ s.pay = [] ∧ s.res = none := by
  simp only [State.latchesFit, hp]

theorem latchesFit_of_unanswered (hp : s.phase = .sAssert ∨ s.phase = .sSetup ∨ s.phase = .sXfer) :
    s.latchesFit ↔ s.codesLatched ∧ s.res = none := by
  rcases hp with hp | hp | hp <;> simp only [State.latchesFit, hp]

theorem latchesFit_of_answered (hp : s.phase = .sHold ∨ s.phase = .sRelease) :
    s.latchesFit ↔ s.codesLatched ∧ ∃ a, s.res = some a := by
  rcases hp with hp | hp <;> simp only [State.latchesFit, hp]

theorem chipSelectFits_of_deselected (hp : s.phase = .idle ∨ s.phase = .sAssert) :
    s.chipSelectFits ↔ s.csLevel ≠ some s.cfg.csActiveLevel := by
  rcases hp with hp | hp <;> simp only [State.chipSelectFits, hp]

theorem chipSelectFits_of_selected
    (hp : s.phase = .sSetup ∨ s.phase = .sXfer ∨ s.phase = .sHold ∨ s.phase = .sRelease) :
    s.chipSelectFits ↔ s.csLevel = some s.cfg.csActiveLevel := by
  rcases hp with hp | hp | hp | hp <;> simp only [State.chipSelectFits, hp]

end Phases

theorem level_inverse_ne (v : Level) : v.inverse ≠ v := by cases v <;> decide

/-! ### Each move keeps the invariant -/

section KeepsInv
variable {s : State}

/-- A state with the record, the block's registers, chip-select and the ghost codes of a good one is good. -/
theorem inv_of_same_block {t : State} (hcfg : t.cfg = s.cfg) (hblock : t.blockState = s.blockState)
    (hcs : t.csLevel = s.csLevel) (hl : t.setL = s.setL) (hr : t.setR = s.setR) (h : s.Inv) : t.Inv := by
  simp only [State.blockState, Prod.mk.injEq] at hblock
  obtain ⟨hphase, hlcode, hrcode, hpay, hres⟩ := hblock
  simpa only [State.Inv, State.latchesFit, State.codesLatched, State.chipSelectFits, State.ghostPaired,
    hcfg, hphase, hlcode, hrcode, hpay, hres, hcs, hl, hr] using h

theorem setHost_inv (moves : List HostMove) (h : s.Inv) : (s.setHost moves).Inv :=
  inv_of_same_block rfl rfl rfl rfl rfl h

theorem driveMapIn_inv (w : Word32) (h : s.Inv) : (s.driveMapIn w).Inv :=
  inv_of_same_block rfl rfl rfl rfl rfl h

theorem holdOffer_inv (w : CmdWord) (h : s.Inv) : (s.holdOffer w).Inv :=
  inv_of_same_block rfl rfl rfl rfl rfl h

theorem muteWrite_inv (v : Level) (h : s.Inv) : ((s.emitLevel .mute v).report .ok).Inv :=
  inv_of_same_block rfl rfl rfl rfl rfl h

theorem raiseFailure_inv (f : Failure) (h : s.Inv) : (s.raiseFailure f).Inv :=
  inv_of_same_block rfl rfl rfl rfl rfl h

theorem afterAccept_inv (x y : Word32) (hp : s.phase = .idle) (h : s.Inv) : (s.afterAccept x y).Inv := by
  obtain ⟨hcfg, -, hlatches, hcs, hghost⟩ := h
  obtain ⟨-, -, hpay, hres⟩ := (latchesFit_of_idle hp).1 hlatches
  have hfill : (s.afterAccept x y).pay = [(0, gainCode s.cfg x), (1, gainCode s.cfg y)] := by
    simp only [State.afterAccept, hpay]; rfl
  refine ⟨hcfg, ?_, ?_, (chipSelectFits_of_deselected (.inl hp)).1 hcs, hghost⟩
  · rw [hfill]; rfl
  · exact ⟨⟨_, _, rfl, rfl, hfill⟩, hres⟩

theorem afterAssert_inv (hp : s.phase = .sAssert) (h : s.Inv) : s.afterAssert.Inv := by
  obtain ⟨hcfg, hwf, hlatches, -, hghost⟩ := h
  exact ⟨hcfg, hwf, (latchesFit_of_unanswered (.inl hp)).1 hlatches, rfl, hghost⟩

theorem afterSetup_inv (hp : s.phase = .sSetup) (h : s.Inv) : s.afterSetup.Inv := by
  obtain ⟨hcfg, hwf, hlatches, hcs, hghost⟩ := h
  exact ⟨hcfg, hwf, (latchesFit_of_unanswered (.inr (.inl hp))).1 hlatches,
    (chipSelectFits_of_selected (.inl hp)).1 hcs, hghost⟩

theorem afterXfer_inv (l r : Code) (hp : s.phase = .sXfer) (h : s.Inv) : (s.afterXfer l r).Inv := by
  obtain ⟨hcfg, hwf, hlatches, hcs, hghost⟩ := h
  obtain ⟨hcodes, -⟩ := (latchesFit_of_unanswered (.inr (.inr hp))).1 hlatches
  have hselected := (chipSelectFits_of_selected (.inr (.inl hp))).1 hcs
  simpa [State.Inv, State.latchesFit, State.codesLatched, State.chipSelectFits, State.ghostPaired, State.afterXfer,
    hcfg, hwf, hselected] using And.intro hcodes hghost

theorem afterHold_inv (hp : s.phase = .sHold) (h : s.Inv) : s.afterHold.Inv := by
  obtain ⟨hcfg, hwf, hlatches, hcs, hghost⟩ := h
  exact ⟨hcfg, hwf, (latchesFit_of_answered (.inl hp)).1 hlatches,
    (chipSelectFits_of_selected (.inr (.inr (.inl hp)))).1 hcs, hghost⟩

section Release
variable (s) (a : XferAnswer) (l r : Code)

theorem afterRelease_cfg : (s.afterRelease a l r).cfg = s.cfg := State.reportAnswer_cfg _ a

theorem afterRelease_csLevel : (s.afterRelease a l r).csLevel = some s.cfg.csActiveLevel.inverse :=
  State.reportAnswer_csLevel _ a

theorem afterRelease_muteLevel : (s.afterRelease a l r).muteLevel = s.muteLevel := State.reportAnswer_muteLevel _ a

/-- R161: both channels are set on success, and neither after a failure. -/
theorem afterRelease_ghostPaired : (s.afterRelease a l r).ghostPaired := by cases a <;> rfl

end Release

/-- The step out of S_RELEASE clears the latches and writes the inactive level, so what it leaves needs nothing of the
state before but its record. -/
theorem afterRelease_inv (a : XferAnswer) (l r : Code) (h : s.Inv) : (s.afterRelease a l r).Inv := by
  obtain ⟨hcfg, -, -, -, -⟩ := h
  refine ⟨?_, rfl, ⟨rfl, rfl, rfl, rfl⟩, ?_, afterRelease_ghostPaired s a l r⟩
  · rwa [afterRelease_cfg]
  · rw [chipSelectFits_of_deselected (.inl rfl), afterRelease_cfg, afterRelease_csLevel]
    exact fun heq => level_inverse_ne _ (Option.some.inj heq)

end KeepsInv

/-! ### What a step keeps -/

/-- Everything a step of CTRL can do when the latches hold what the phase says, by the named states. -/
theorem advance_moves {s t : State} (hf : s.latchesFit) (h : advance s = .next t) :
    (s.phase = .idle ∧ t = s) ∨ (s.phase = .sAssert ∧ t = s.afterAssert) ∨
    (s.phase = .sSetup ∧ t = s.afterSetup) ∨ (s.phase = .sXfer ∧ ∃ l r, t = s.afterXfer l r) ∨
    (s.phase = .sHold ∧ t = s.afterHold) ∨
    (s.phase = .sRelease ∧ ∃ a l r, s.res = some a ∧ t = s.afterRelease a l r) := by
  rcases advance_eq_next h with ⟨hp, ht⟩ | ⟨hp, ht⟩ | ⟨hp, ht⟩ | ⟨hp, b0, b1, -, -, ht⟩ | ⟨hp, ht⟩ | ⟨hp, -⟩
  · exact .inl ⟨hp, ht⟩
  · exact .inr (.inl ⟨hp, ht⟩)
  · exact .inr (.inr (.inl ⟨hp, ht⟩))
  · exact .inr (.inr (.inr (.inl ⟨hp, b0, b1, ht⟩)))
  · exact .inr (.inr (.inr (.inr (.inl ⟨hp, ht⟩))))
  · obtain ⟨hcodes, a, ha⟩ := (latchesFit_of_answered (.inr hp)).1 hf
    obtain ⟨l, r, hc⟩ := hcodes.holdsCodes
    rw [advance_of_sRelease hp hc ha] at h
    cases h
    exact .inr (.inr (.inr (.inr (.inr ⟨hp, a, l, r, ha, rfl⟩))))

/-- A step keeps what HOST's move, CTRL's move and every meaning keep. -/
theorem step_keeps {P : State → Prop} (hhost : ∀ s moves, P s → P (s.setHost moves))
    (hadvance : ∀ s t, P s → advance s = .next t → P t)
    (hexec : ∀ i s t, P s → exec i s = .next t → P t) {s t : State} (hs : P s) (h : step s = .next t) : P t := by
  obtain ⟨moves, hm | ⟨w, hm⟩ | ⟨-, w, hm⟩⟩ := step_cases s <;> rw [hm] at h
  · exact hadvance _ _ (hhost s moves hs) h
  · exact hexec _ _ _ (hhost s moves hs) h
  · exact hexec _ _ _ (hhost s moves hs) h

theorem advance_keeps_inv (s t : State) (hs : s.Inv) (h : advance s = .next t) : t.Inv := by
  have ⟨_, _, hlatches, _, _⟩ := hs
  rcases advance_moves hlatches h with ⟨-, rfl⟩ | ⟨hp, rfl⟩ | ⟨hp, rfl⟩ | ⟨hp, l, r, rfl⟩ | ⟨hp, rfl⟩ |
    ⟨-, a, l, r, -, rfl⟩
  · exact hs
  · exact afterAssert_inv hp hs
  · exact afterSetup_inv hp hs
  · exact afterXfer_inv l r hp hs
  · exact afterHold_inv hp hs
  · exact afterRelease_inv a l r hs

theorem exec_keeps_inv (i : Instr) (s t : State) (hs : s.Inv) (h : exec i s = .next t) : t.Inv := by
  rcases exec_eq_next h with ⟨w, -, rfl⟩ | ⟨-, w, rfl⟩ | ⟨-, -, v, rfl⟩ | ⟨hp, x, y, -, rfl⟩ | ⟨-, op, rfl⟩
  · exact driveMapIn_inv w hs
  · exact holdOffer_inv w hs
  · exact muteWrite_inv v hs
  · exact afterAccept_inv x y hp hs
  · exact raiseFailure_inv _ hs

theorem advance_cfg {s t : State} (h : advance s = .next t) : t.cfg = s.cfg := by
  rcases advance_eq_next h with ⟨-, rfl⟩ | ⟨-, rfl⟩ | ⟨-, rfl⟩ | ⟨-, b0, b1, -, -, rfl⟩ | ⟨-, rfl⟩ |
    ⟨-, a, gl, gr, -, -, rfl⟩
  case inr.inr.inr.inr.inr => exact State.reportAnswer_cfg _ a
  all_goals rfl

theorem exec_cfg {i : Instr} {s t : State} (h : exec i s = .next t) : t.cfg = s.cfg := by
  rcases exec_eq_next h with ⟨w, -, rfl⟩ | ⟨-, w, rfl⟩ | ⟨-, -, v, rfl⟩ | ⟨-, x, y, -, rfl⟩ | ⟨-, op, rfl⟩
  all_goals rfl

/-! ### The protocol and the line levels -/

/-- Where events lead that follow a run which has come to `p`. -/
def protocolFrom (c : Config) (p : Progress) (es : List Event) : Option Progress :=
  es.foldl (fun q e => q.bind fun r => protocolStep c r e) (some p)

theorem protocolRun_append_of_progress {c : Config} {es : List Event} {p : Progress}
    (h : protocolRun c es = some p) (fs : List Event) : protocolRun c (es ++ fs) = protocolFrom c p fs := by
  unfold protocolRun at h ⊢
  rw [List.foldl_append, h]
  rfl

theorem followsProtocol_iff {s : State} {p : Progress} (hp : progressAt s.phase s.res = some p) :
    s.followsProtocol ↔ protocolRun s.cfg s.events = some p := by
  unfold State.followsProtocol
  rw [hp]
  exact ⟨And.left, fun h => ⟨h, h ▸ rfl⟩⟩

/-- R34: the level of line `l` after an event, from the level before it. -/
def levelAfter (l : Line) (cur : Option Level) : Event → Option Level
  | .setLevel l' v => if l' = l then some v else cur
  | _ => cur

theorem lastLevel_append_many (l : Line) (es fs : List Event) :
    lastLevel l (es ++ fs) = fs.foldl (levelAfter l) (lastLevel l es) := by
  induction fs generalizing es with
  | nil => simp
  | cons e fs ih =>
    have hone : lastLevel l (es ++ [e]) = levelAfter l (lastLevel l es) e := by
      rw [lastLevel_append]; cases e <;> rfl
    rw [List.append_cons, ih, hone, List.foldl_cons]

/-- `t` has the record of `s`, its events and then `es`, and the line levels that `es` writes. -/
structure State.Appends (s t : State) (es : List Event) : Prop where
  cfg : t.cfg = s.cfg
  events : t.events = s.events ++ es
  csLevel : t.csLevel = es.foldl (levelAfter .cs) s.csLevel
  muteLevel : t.muteLevel = es.foldl (levelAfter .mute) s.muteLevel

section Appends
variable {s t : State} {es : List Event}

theorem followsProtocol_of_appends {p q : Progress} (ha : s.Appends t es) (h : s.followsProtocol)
    (hp : progressAt s.phase s.res = some p) (hes : protocolFrom s.cfg p es = some q)
    (hq : progressAt t.phase t.res = some q) : t.followsProtocol := by
  rw [followsProtocol_iff hq, ha.cfg, ha.events, protocolRun_append_of_progress ((followsProtocol_iff hp).1 h), hes]

theorem linesFollowEvents_of_appends (ha : s.Appends t es) (h : s.linesFollowEvents) : t.linesFollowEvents := by
  obtain ⟨hcs, hmute⟩ := h
  unfold State.linesFollowEvents
  rw [ha.events, lastLevel_append_many, lastLevel_append_many, ← hcs, ← hmute]
  exact ⟨ha.csLevel, ha.muteLevel⟩

/-- A good run goes on to a good state whose new events take the protocol from where the old PHASE stands to where the
new one does. -/
theorem goodRun_of_appends {p q : Progress} (ha : s.Appends t es) (h : s.GoodRun) (hinv : s.Inv → t.Inv)
    (hp : progressAt s.phase s.res = some p) (hes : protocolFrom s.cfg p es = some q)
    (hq : progressAt t.phase t.res = some q) : t.GoodRun := by
  obtain ⟨hs, hproto, hlines⟩ := h
  exact ⟨hinv hs, followsProtocol_of_appends ha hproto hp hes hq, linesFollowEvents_of_appends ha hlines⟩

/-- A move of HOST's that the events, the lines and the block do not see. -/
theorem goodRun_of_unseen (ha : s.Appends t []) (h : s.GoodRun) (hinv : s.Inv → t.Inv) (hphase : t.phase = s.phase)
    (hres : t.res = s.res) : t.GoodRun := by
  have ⟨_, ⟨hrun, hsome⟩, _⟩ := h
  obtain ⟨p, hp⟩ := Option.isSome_iff_exists.1 (hrun ▸ hsome)
  exact goodRun_of_appends ha h hinv hp rfl (by rw [hphase, hres, hp])

end Appends

/-! ### What each move appends -/

section Appended
variable (s : State)

theorem setHost_appends (moves : List HostMove) : s.Appends (s.setHost moves) [] :=
  ⟨rfl, (List.append_nil _).symm, rfl, rfl⟩

theorem driveMapIn_appends (w : Word32) : s.Appends (s.driveMapIn w) [] :=
  ⟨rfl, (List.append_nil _).symm, rfl, rfl⟩

theorem holdOffer_appends (w : CmdWord) : s.Appends (s.holdOffer w) [] :=
  ⟨rfl, (List.append_nil _).symm, rfl, rfl⟩

/-- R133, R134. -/
theorem muteWrite_appends (v : Level) :
    s.Appends ((s.emitLevel .mute v).report .ok) [.setLevel .mute v, .done .ok] :=
  ⟨rfl, List.append_assoc _ _ _, rfl, rfl⟩

/-- R190. -/
theorem raiseFailure_appends (f : Failure) : s.Appends (s.raiseFailure f) [.done f.result] := ⟨rfl, rfl, rfl, rfl⟩

/-- R151: no event. -/
theorem afterAccept_appends (x y : Word32) : s.Appends (s.afterAccept x y) [] :=
  ⟨rfl, (List.append_nil _).symm, rfl, rfl⟩

theorem afterAssert_appends : s.Appends s.afterAssert [.setLevel .cs s.cfg.csActiveLevel] := ⟨rfl, rfl, rfl, rfl⟩

theorem afterSetup_appends : s.Appends s.afterSetup [.delay s.cfg.tSetupMs.toNat] := ⟨rfl, rfl, rfl, rfl⟩

theorem afterXfer_appends (l r : Code) :
    s.Appends (s.afterXfer l r) [.transmit l r 2 s.cfg.timeoutMs.toNat s.serAnswer] :=
  ⟨afterXfer_cfg s l r, afterXfer_events s l r, by simp [State.afterXfer, levelAfter],
    by simp [State.afterXfer, levelAfter]⟩

theorem afterHold_appends : s.Appends s.afterHold [.delay s.cfg.tHoldMs.toNat] := ⟨rfl, rfl, rfl, rfl⟩

theorem afterRelease_appends (a : XferAnswer) (l r : Code) :
    s.Appends (s.afterRelease a l r) [.setLevel .cs s.cfg.csActiveLevel.inverse, .done (answerResult a)] :=
  ⟨afterRelease_cfg s a l r, afterRelease_events s a l r, afterRelease_csLevel s a l r, afterRelease_muteLevel s a l r⟩

end Appended

/-! ### Each move keeps a good run -/

section KeepsGoodRun
variable {s : State}

/-- PHASE alone fixes the progress where RES does not count. -/
theorem progressAt_of_phase {ph : Phase} {p : Progress} (hp : s.phase = ph) (h : ∀ res, progressAt ph res = some p) :
    progressAt s.phase s.res = some p := by rw [hp, h]

theorem setHost_goodRun (moves : List HostMove) (h : s.GoodRun) : (s.setHost moves).GoodRun :=
  goodRun_of_unseen (setHost_appends s moves) h (setHost_inv moves) rfl rfl

theorem driveMapIn_goodRun (w : Word32) (h : s.GoodRun) : (s.driveMapIn w).GoodRun :=
  goodRun_of_unseen (driveMapIn_appends s w) h (driveMapIn_inv w) rfl rfl

theorem holdOffer_goodRun (w : CmdWord) (h : s.GoodRun) : (s.holdOffer w).GoodRun :=
  goodRun_of_unseen (holdOffer_appends s w) h (holdOffer_inv w) rfl rfl

theorem muteWrite_goodRun (v : Level) (hp : s.phase = .idle) (h : s.GoodRun) :
    ((s.emitLevel .mute v).report .ok).GoodRun :=
  have hrest : progressAt s.phase s.res = some .rest := progressAt_of_phase hp fun _ => rfl
  goodRun_of_appends (muteWrite_appends s v) h (muteWrite_inv v) hrest rfl hrest

theorem illegalCommand_goodRun (op : BitVec 8) (hp : s.phase = .idle) (h : s.GoodRun) :
    (s.raiseFailure (.illegalCmd op)).GoodRun :=
  have hrest : progressAt s.phase s.res = some .rest := progressAt_of_phase hp fun _ => rfl
  goodRun_of_appends (raiseFailure_appends s _) h (raiseFailure_inv _) hrest rfl hrest

theorem afterAccept_goodRun (x y : Word32) (hp : s.phase = .idle) (h : s.GoodRun) : (s.afterAccept x y).GoodRun :=
  goodRun_of_appends (p := .rest) (afterAccept_appends s x y) h (afterAccept_inv x y hp)
    (progressAt_of_phase hp fun _ => rfl) rfl rfl

theorem afterAssert_goodRun (hp : s.phase = .sAssert) (h : s.GoodRun) : s.afterAssert.GoodRun :=
  goodRun_of_appends (p := .rest) (afterAssert_appends s) h (afterAssert_inv hp)
    (progressAt_of_phase hp fun _ => rfl) (if_pos rfl) rfl

theorem afterSetup_goodRun (hp : s.phase = .sSetup) (h : s.GoodRun) : s.afterSetup.GoodRun :=
  goodRun_of_appends (p := .selected) (afterSetup_appends s) h (afterSetup_inv hp)
    (progressAt_of_phase hp fun _ => rfl) (if_pos rfl) rfl

theorem afterXfer_goodRun (l r : Code) (hp : s.phase = .sXfer) (h : s.GoodRun) : (s.afterXfer l r).GoodRun :=
  goodRun_of_appends (p := .settled) (afterXfer_appends s l r) h (afterXfer_inv l r hp)
    (progressAt_of_phase hp fun _ => rfl) (if_pos ⟨rfl, rfl⟩) rfl

theorem afterHold_goodRun {a : XferAnswer} (hp : s.phase = .sHold) (ha : s.res = some a) (h : s.GoodRun) :
    s.afterHold.GoodRun :=
  goodRun_of_appends (p := .sent a) (afterHold_appends s) h (afterHold_inv hp) (by rw [hp, ha]; rfl) (if_pos rfl)
    (congrArg (progressAt .sRelease) ha)

/-- The last two events of a SETGAIN lead from the trailing delay to rest (R156, R158). -/
theorem protocolFrom_release (c : Config) (a : XferAnswer) :
    protocolFrom c (.held a) [.setLevel .cs c.csActiveLevel.inverse, .done (answerResult a)] = some .rest := by
  simp [protocolFrom, protocolStep]

theorem afterRelease_goodRun {a : XferAnswer} (l r : Code) (hp : s.phase = .sRelease) (ha : s.res = some a)
    (h : s.GoodRun) : (s.afterRelease a l r).GoodRun :=
  goodRun_of_appends (afterRelease_appends s a l r) h (afterRelease_inv a l r) (by rw [hp, ha]; rfl)
    (protocolFrom_release s.cfg a) rfl

end KeepsGoodRun

theorem advance_keeps_goodRun (s t : State) (hs : s.GoodRun) (h : advance s = .next t) : t.GoodRun := by
  have ⟨⟨_, _, hlatches, _, _⟩, _, _⟩ := hs
  rcases advance_moves hlatches h with ⟨-, rfl⟩ | ⟨hp, rfl⟩ | ⟨hp, rfl⟩ | ⟨hp, l, r, rfl⟩ | ⟨hp, rfl⟩ |
    ⟨hp, a, l, r, ha, rfl⟩
  · exact hs
  · exact afterAssert_goodRun hp hs
  · exact afterSetup_goodRun hp hs
  · exact afterXfer_goodRun l r hp hs
  · obtain ⟨-, a, ha⟩ := (latchesFit_of_answered (.inl hp)).1 hlatches
    exact afterHold_goodRun hp ha hs
  · exact afterRelease_goodRun l r hp ha hs

theorem exec_keeps_goodRun (i : Instr) (s t : State) (hs : s.GoodRun) (h : exec i s = .next t) : t.GoodRun := by
  rcases exec_eq_next h with ⟨w, -, rfl⟩ | ⟨-, w, rfl⟩ | ⟨hp, -, v, rfl⟩ | ⟨hp, x, y, -, rfl⟩ | ⟨hp, op, rfl⟩
  · exact driveMapIn_goodRun w hs
  · exact holdOffer_goodRun w hs
  · exact muteWrite_goodRun v hp hs
  · exact afterAccept_goodRun x y hp hs
  · exact illegalCommand_goodRun op hp hs

/-! ### Construction -/

/-- R36, R130: what construction leaves is a good run with no event. -/
theorem init_goodRun {c : Config} (h : legalConfig c = true) : (State.init c).GoodRun :=
  ⟨⟨h, rfl, ⟨rfl, rfl, rfl, rfl⟩, (chipSelectFits_of_deselected (.inl rfl)).2 nofun, rfl⟩, ⟨rfl, rfl⟩, rfl, rfl⟩

theorem default_legal : legalConfig Config.default = true := by decide

theorem construct_of_legal {c : Config} (h : legalConfig c = true) : construct c = .next (State.init c) := by
  rw [construct, if_pos h]

theorem construct_of_illegal {c : Config} (h : ¬ legalConfig c = true) : construct c = .refused .illegalConfig := by
  rw [construct, if_neg h]

theorem construct_completes_iff (c : Config) : (∃ t, construct c = .next t) ↔ legalConfig c = true := by
  refine ⟨fun ⟨t, ht⟩ => ?_, fun h => ⟨_, construct_of_legal h⟩⟩
  by_contra h
  rw [construct_of_illegal h] at ht
  cases ht

/-! ### The rational value of a word in whole units -/

/-- A class of R76 with its whole number of units of 2^(-149) read as the rational number it stands for. -/
def Decoded.toRational : Decoded → DecodedQ
  | .nan => .nan
  | .posInf => .posInf
  | .negInf => .negInf
  | .finite n => .finite ((n : ℚ) / 2 ^ 149)

/-- R76, R101: the magnitude of a finite word, rational and in units. -/
theorem magnitude_toRational (e m : Nat) :
    (if e = 0 then (m : ℚ) * (2 : ℚ) ^ (-149 : ℤ) else (2 ^ 23 + m) * (2 : ℚ) ^ ((e : ℤ) - 150)) =
      (magnitude e m : ℚ) / 2 ^ 149 := by
  cases e with
  | zero => simp [magnitude, div_eq_mul_inv, zpow_neg]
  | succ k =>
    have hexp : ((k + 1 : Nat) : ℤ) - 150 = (k : ℤ) - (149 : Nat) := by omega
    rw [if_neg k.succ_ne_zero, hexp, zpow_sub₀ two_ne_zero, zpow_natCast, zpow_natCast]
    simp only [magnitude, k.succ_ne_zero, if_false, Nat.add_sub_cancel]
    push_cast
    rw [mul_div_assoc]
    norm_num

/-- R76: the rational decoding by the fields of the word, a finite magnitude read from its units. -/
theorem dec32Q_eq_fields (w : Word32) :
    dec32Q w =
      if expField w = 255 ∧ sigField w ≠ 0 then .nan
      else if expField w = 255 then (if signBit w = 0 then .posInf else .negInf)
      else .finite (if signBit w = 0 then (magnitude (expField w) (sigField w) : ℚ) / 2 ^ 149
        else -((magnitude (expField w) (sigField w) : ℚ) / 2 ^ 149)) := by
  rw [← magnitude_toRational]
  rfl

/-- R76: the two decodings of a word agree. -/
theorem dec32Q_eq_toRational (w : Word32) : dec32Q w = (dec32 w).toRational := by
  rw [dec32Q_eq_fields, dec32]
  by_cases he : expField w = 255
  · by_cases hm : sigField w = 0
    · simp only [he, hm, if_true, ne_eq, not_true_eq_false, and_false, if_false]
      split <;> rfl
    · simp only [he, hm, if_true, if_false, ne_eq, not_false_eq_true, and_self]
      rfl
  · simp only [he, if_false, false_and]
    split <;> simp [Decoded.toRational, neg_div]

/-- R21, R22: a word is finite exactly when it has a finite rational value. -/
theorem isFinite_iff (w : Word32) : isFinite w = true ↔ ∃ v, dec32Q w = .finite v := by
  rw [dec32Q_eq_toRational, isFinite]
  cases dec32 w <;> simp [Decoded.toRational]

/-- R21: a finite word has a value other than 0 exactly when it has a number of units other than 0. -/
theorem isFinite_ne_zero_iff (w : Word32) :
    (isFinite w = true ∧ configUnits w ≠ 0) ↔ ∃ v, dec32Q w = .finite v ∧ v ≠ 0 := by
  rw [dec32Q_eq_toRational, isFinite, configUnits]
  cases dec32 w <;> simp [Decoded.toRational]

theorem word16_ne_zero_iff (x : BitVec 16) : x ≠ 0 ↔ 1 ≤ x.toNat := by bv_omega

/-- R21 to R25, R104: the legal records, over the rational values of SLOPE and OFFSET. -/
theorem legalConfig_iff (c : Config) :
    legalConfig c = true ↔
      (∃ v, dec32Q c.slope = .finite v ∧ v ≠ 0) ∧ (∃ v, dec32Q c.offset = .finite v) ∧
        1 ≤ c.tSetupMs.toNat ∧ 1 ≤ c.tHoldMs.toNat ∧ 1 ≤ c.timeoutMs.toNat ∧ c.nanCode ≤ 255 := by
  simp only [legalConfig, Bool.and_eq_true, decide_eq_true_eq]
  rw [isFinite_ne_zero_iff, isFinite_iff, word16_ne_zero_iff, word16_ne_zero_iff, word16_ne_zero_iff]
  simp only [and_assoc]

/-- The rational value of a word whose units are known. -/
theorem dec32Q_of_units {w : Word32} {n : Int} {v : ℚ} (h : dec32 w = .finite n) (hv : (n : ℚ) = v * 2 ^ 149) :
    dec32Q w = .finite v := by
  rw [dec32Q_eq_toRational, h, Decoded.toRational, hv, mul_div_cancel_right₀ _ (by positivity)]

/-! ### Commands handed over -/

/-- A command instruction is its word offered for acceptance (R71). -/
theorem exec_eq_accept {i : Instr} {w : CmdWord} (h : encode i = .commandPort w) :
    ∃ perform, ∀ s, exec i s = accept w s perform := by
  cases i with
  | map _ => cases h
  | _ => cases h; exact ⟨_, fun _ => rfl⟩

/-! ### Two SETGAINs from one state -/

/-- R29: what six steps leave of the operands stands outside the block. -/
theorem afterSetgain_operands (x y x' y' : Word32) (s : State) :
    s.afterSetgain x' y' =
      { s.afterSetgain x y with
        events := (s.afterSetgain x' y').events, wire := (s.afterSetgain x' y').wire
        setL := (s.afterSetgain x' y').setL, setR := (s.afterSetgain x' y').setR } := by
  unfold State.afterSetgain
  cases s.serAnswer <;> rfl

end Sys2Proof.Machine

namespace Sys2Proof.Proofs

open Sys2Proof Sys2Proof.Machine

/-- Settles O32: HOST's move, CTRL's move and every meaning keep the invariant. -/
theorem everyStepKeepsTheInvariant : Obligations.EveryStepKeepsTheInvariant :=
  fun _ _ => step_keeps (P := State.Inv) (fun _ moves => setHost_inv moves) advance_keeps_inv exec_keeps_inv

/-- Settles O34: each move appends the protocol's next events and writes the lines as they say. -/
theorem everyStepKeepsTheProtocol : Obligations.EveryStepKeepsTheProtocol :=
  fun _ _ => step_keeps (P := State.GoodRun) (fun _ moves => setHost_goodRun moves) advance_keeps_goodRun
    exec_keeps_goodRun

/-- Settles O25: the six steps from either offer end in the named state of its operands. -/
theorem operandsLeaveNoTraceInTheBlock : Obligations.OperandsLeaveNoTraceInTheBlock :=
  fun s a b a' b' rest _ hp hk =>
    ⟨_, _, steps_of_setgain_offer (s := { s with host := .command (commandWord 0x03 a b) true :: rest }) hp rfl hk,
      steps_of_setgain_offer (s := { s with host := .command (commandWord 0x03 a' b') true :: rest }) hp rfl hk,
      afterSetgain_operands a b a' b' (s.setHost rest)⟩

/-- Settles O38: no move writes the record. -/
theorem noStepChangesTheConfiguration : Obligations.NoStepChangesTheConfiguration :=
  fun s _ => step_keeps (P := fun u => u.cfg = s.cfg) (fun _ _ hu => hu) (fun _ _ hu h => (advance_cfg h).trans hu)
    (fun _ _ _ hu h => (exec_cfg h).trans hu) rfl

/-- Settles O46: construction goes on for the legal records only, and those are the ones the rational values say. -/
theorem constructionRefusesExactlyTheIllegalRecords : Obligations.ConstructionRefusesExactlyTheIllegalRecords := by
  intro c
  refine ⟨?_, fun hstop => ?_⟩
  · rw [construct_completes_iff, legalConfig_iff]
  · exact construct_of_illegal fun hlegal => hstop _ (construct_of_legal hlegal)

/-- Settles O9: every command instruction passes through acceptance. -/
theorem commandsWaitWhileTheBlockIsBusy : Obligations.CommandsWaitWhileTheBlockIsBusy := by
  intro i w s _ hw hp
  obtain ⟨perform, hexec⟩ := exec_eq_accept hw
  rw [hexec, accept_of_busy hp]
  rfl

/-- Settles O31: the state of R36 meets every clause, and State.reset is that of the default record. -/
theorem constructionGivesAGoodRun : Obligations.ConstructionGivesAGoodRun :=
  ⟨init_goodRun default_legal, fun _ h => ⟨_, construct_of_legal h, init_goodRun h⟩⟩

/-- Settles O45; SLOPE's 2.0 is 2^150 units and OFFSET's 192 is 192 · 2^149. -/
theorem constructionLeavesTheResetValues : Obligations.ConstructionLeavesTheResetValues := by
  refine ⟨fun c h => ?_, construct_of_legal default_legal, ?_, ?_, rfl, rfl, rfl, rfl, rfl, rfl⟩
  · exact ⟨_, construct_of_legal h, rfl, rfl, rfl, rfl, rfl, rfl, rfl, rfl, rfl, rfl, rfl, rfl, rfl⟩
  · exact dec32Q_of_units (n := 2 * 2 ^ 149) (by decide) (by norm_num)
  · exact dec32Q_of_units (n := 192 * 2 ^ 149) (by decide) (by norm_num)

/-- Settles O59, by reading the code back. -/
theorem phaseHasItsThreeBitCode : Obligations.PhaseHasItsThreeBitCode :=
  ⟨rfl, rfl, rfl, rfl, rfl, rfl, fun _ _ => Phase.bits_injective,
    fun p => ⟨Phase.bits_ne_of_ofBits_none rfl p, Phase.bits_ne_of_ofBits_none rfl p⟩⟩

end Sys2Proof.Proofs
end

section
/-! The statements of 20_memory.md. What the four accesses of PAY answer (R52, R54), what the transfer step sends and
latches and in which bit order (R53, R154, R165), what the transfer port carries (R52, R79, R80), and that a MUTE
offered during a SETGAIN waits for its Done (R61, R136). -/

namespace Sys2Proof.Machine

/-! ### The accesses of PAY -/

section PayloadAccess
variable {s : State}

theorem memWriteByte_of_lt {a : Nat} (v : Code) (ha : a < 2) :
    memWriteByte a v s = .ok { s with pay := Payload.insert s.pay a v } := if_pos ha

/-- A byte read looks at nothing but its own address. -/
theorem memReadByte_congr {t : State} {a : Nat} (h : Payload.lookup t.pay a = Payload.lookup s.pay a) :
    memReadByte a t = memReadByte a s := by
  unfold memReadByte
  rw [h]

theorem memReadByte_of_ge {a : Nat} (ha : 2 ≤ a) : memReadByte a s = .error (.payloadAccess a 1) :=
  if_neg (Nat.not_lt.2 ha)

theorem memWriteByte_of_ge {a : Nat} (v : Code) (ha : 2 ≤ a) : memWriteByte a v s = .error (.payloadAccess a 1) :=
  if_neg (Nat.not_lt.2 ha)

theorem memReadPair_of_bytes {lo hi : Code} (h0 : memReadByte 0 s = .ok lo) (h1 : memReadByte 1 s = .ok hi) :
    memReadPair 0 s = .ok (hi ++ lo) := by
  simp only [memReadPair, if_true, h0, h1]

theorem memReadPair_of_ne {a : Nat} (ha : a ≠ 0) : memReadPair a s = .error (.payloadAccess a 2) := if_neg ha

theorem memWritePair_of_ne {a : Nat} (w : BitVec 16) (ha : a ≠ 0) :
    memWritePair a w s = .error (.payloadAccess a 2) := if_neg ha

/-- R52, R54: a byte is read back where it was written, and the other address reads as before. -/
theorem memReadByte_after_memWriteByte {a : Nat} (v : Code) (ha : a < 2) :
    ∃ t, memWriteByte a v s = .ok t ∧ memReadByte a t = .ok v ∧
      ∀ b, b ≠ a → memReadByte b t = memReadByte b s :=
  ⟨_, memWriteByte_of_lt v ha, memReadByte_of_lookup ha (Payload.lookup_insert_self _ _ _),
    fun _ hb => memReadByte_congr (Payload.lookup_insert_other _ _ hb)⟩

/-- A pair is its two bytes, the low one the less significant (R52). -/
theorem pair_eq_bytes (w : BitVec 16) : w.extractLsb' 8 8 ++ w.extractLsb' 0 8 = w :=
  (BitVec.extractLsb'_append_extractLsb'_eq_extractLsb' (x := w) (start₁ := 0) rfl).trans BitVec.extractLsb'_eq_self

theorem memReads_of_pair {w : BitVec 16} (h0 : Payload.lookup s.pay 0 = some (w.extractLsb' 0 8))
    (h1 : Payload.lookup s.pay 1 = some (w.extractLsb' 8 8)) :
    memReadPair 0 s = .ok w ∧ memReadByte 0 s = .ok (w.extractLsb' 0 8) ∧
      memReadByte 1 s = .ok (w.extractLsb' 8 8) := by
  have hlo := memReadByte_of_lookup (by decide) h0
  have hhi := memReadByte_of_lookup (by decide) h1
  exact ⟨by rw [memReadPair_of_bytes hlo hhi, pair_eq_bytes], hlo, hhi⟩

/-- R52, R54: a pair is read back, whole and by its bytes; the write of the high byte leaves the low one. -/
theorem memReads_after_memWritePair (w : BitVec 16) :
    ∃ t, memWritePair 0 w s = .ok t ∧ memReadPair 0 t = .ok w ∧
      memReadByte 0 t = .ok (w.extractLsb' 0 8) ∧ memReadByte 1 t = .ok (w.extractLsb' 8 8) :=
  ⟨_, rfl, memReads_of_pair
    ((Payload.lookup_insert_other _ _ (by decide)).trans (Payload.lookup_insert_self _ _ _))
    (Payload.lookup_insert_self _ _ _)⟩

end PayloadAccess

/-! ### The transfer step -/

/-- On success all 16 bits go out (R165). -/
theorem clockedBits_of_success {r : SerReply} (b0 b1 : Code) (h : readStatus r.status = .success) :
    clockedBits r b0 b1 = byteBits b0 ++ byteBits b1 := by
  simp only [clockedBits, h]

/-- R154: the transfer reads the two payload bytes and no other latch. -/
theorem advance_of_sXfer_payload {s : State} {b0 b1 : Code} (hp : s.phase = .sXfer)
    (h0 : Payload.lookup s.pay 0 = some b0) (h1 : Payload.lookup s.pay 1 = some b1) :
    advance s = .next (s.afterXfer b0 b1) := by
  simp only [advance, hp, stepXfer, memReadByte_of_lookup (by decide) h0, memReadByte_of_lookup (by decide) h1,
    orFault_ok]
  rfl

/-- Everything the transfer step writes. -/
theorem afterXfer_eq (b0 b1 : Code) (s : State) :
    s.afterXfer b0 b1 = { s with
      events := s.events ++ [.transmit b0 b1 2 s.cfg.timeoutMs.toNat s.serAnswer]
      wire := s.wire ++ clockedBits s.nextReply b0 b1, res := some s.serAnswer, phase := .sHold
      ser := s.ser.tail, draws := if s.ser = [] then s.draws + 1 else s.draws } := by
  simp only [← List.isEmpty_iff]
  rfl

/-! ### A SETGAIN in progress -/

/-- The six events of R167: these payload bytes, SER's answer `x` to their Transmit, and `a` the answer reported. -/
def setgainEvents (c : Config) (b0 b1 : Code) (x a : XferAnswer) : List Event :=
  [ .setLevel .cs c.csActiveLevel,
    .delay c.tSetupMs.toNat,
    .transmit b0 b1 2 c.timeoutMs.toNat x,
    .delay c.tHoldMs.toNat,
    .setLevel .cs c.csActiveLevel.inverse,
    .done (answerResult a) ]

/-- In `t` the SETGAIN in progress in `s` is over, `es` has followed, and HOST has not moved. -/
structure State.EndsAt (s t : State) (es : List Event) : Prop where
  phase : t.phase = .idle
  host : t.host = s.host
  cfg : t.cfg = s.cfg
  events : t.events = s.events ++ es

section EndsAt
variable {s t u : State} {es : List Event}

/-- A move of CTRL's before the end puts its event in front. -/
theorem State.EndsAt.cons {e : Event} (h : u.EndsAt t es) (hhost : u.host = s.host) (hu : s.Appends u [e]) :
    s.EndsAt t (e :: es) :=
  ⟨h.phase, h.host.trans hhost, h.cfg.trans hu.cfg, by rw [h.events, hu.events, List.append_assoc]; rfl⟩

end EndsAt

section Ends
variable (s : State) (x a : XferAnswer) (l r : Code)

theorem afterRelease_endsAt : s.EndsAt (s.afterRelease a l r) ((setgainEvents s.cfg l r x a).drop 4) :=
  ⟨rfl, State.reportAnswer_host _ a, afterRelease_cfg s a l r, afterRelease_events s a l r⟩

theorem afterHold_endsAt : s.EndsAt (s.afterHold.afterRelease a l r) ((setgainEvents s.cfg l r x a).drop 3) :=
  (afterRelease_endsAt s.afterHold x a l r).cons rfl (afterHold_appends s)

theorem afterXfer_endsAt :
    s.EndsAt ((s.afterXfer l r).afterHold.afterRelease s.serAnswer l r)
      ((setgainEvents s.cfg l r s.serAnswer s.serAnswer).drop 2) :=
  (afterHold_endsAt (s.afterXfer l r) s.serAnswer s.serAnswer l r).cons rfl (afterXfer_appends s l r)

theorem afterSetup_endsAt :
    s.EndsAt ((s.afterSetup.afterXfer l r).afterHold.afterRelease s.serAnswer l r)
      ((setgainEvents s.cfg l r s.serAnswer s.serAnswer).drop 1) :=
  (afterXfer_endsAt s.afterSetup l r).cons rfl (afterSetup_appends s)

theorem afterAssert_endsAt :
    s.EndsAt ((s.afterAssert.afterSetup.afterXfer l r).afterHold.afterRelease s.serAnswer l r)
      (setgainEvents s.cfg l r s.serAnswer s.serAnswer) :=
  (afterSetup_endsAt s.afterAssert l r).cons rfl (afterAssert_appends s)

end Ends

theorem latchesFit_codesLatched {s : State} (hp : s.phase ≠ .idle) (hf : s.latchesFit) : s.codesLatched := by
  unfold State.latchesFit at hf
  cases h : s.phase <;> simp only [h] at hf
  case idle => exact absurd h hp
  all_goals exact hf.1

/-- R30, R167: PHASE counts the steps already taken of a SETGAIN's six, and its events from number PHASE on follow. -/
theorem setgain_ends {s : State} {l r : Code} (hp : s.phase ≠ .idle) (hf : s.latchesFit) (hk : s.hostKeepsOffer)
    (hc : s.HoldsCodes l r) :
    ∃ t, steps (6 - s.phase.bits.toNat) s = .next t ∧
      s.EndsAt t ((setgainEvents s.cfg l r s.serAnswer (s.res.getD s.serAnswer)).drop (s.phase.bits.toNat - 1)) := by
  have unanswered (h : s.res = none) : s.res.getD s.serAnswer = s.serAnswer := by rw [h]; rfl
  have answered {a : XferAnswer} (h : s.res = some a) : s.res.getD s.serAnswer = a := by rw [h]; rfl
  cases h : s.phase
  case idle => exact absurd h hp
  case sAssert =>
    rw [unanswered ((latchesFit_of_unanswered (.inl h)).1 hf).2]
    exact ⟨_, steps_of_sAssert h hk hc, afterAssert_endsAt s l r⟩
  case sSetup =>
    rw [unanswered ((latchesFit_of_unanswered (.inr (.inl h))).1 hf).2]
    exact ⟨_, steps_of_sSetup h hk hc, afterSetup_endsAt s l r⟩
  case sXfer =>
    rw [unanswered ((latchesFit_of_unanswered (.inr (.inr h))).1 hf).2]
    exact ⟨_, steps_of_sXfer h hk hc, afterXfer_endsAt s l r⟩
  case sHold =>
    obtain ⟨-, a, ha⟩ := (latchesFit_of_answered (.inl h)).1 hf
    rw [answered ha]
    exact ⟨_, steps_of_sHold h hk hc ha, afterHold_endsAt s _ a l r⟩
  case sRelease =>
    obtain ⟨-, a, ha⟩ := (latchesFit_of_answered (.inr h)).1 hf
    rw [answered ha]
    exact ⟨_, steps_of_sRelease h hk hc ha, afterRelease_endsAt s _ a l r⟩

/-! ### The MUTE that waits -/

/-- A run can be followed by one step at its end. -/
theorem steps_succ_last {s u : State} {n : Nat} (h : steps n s = .next u) : steps (n + 1) s = step u := by
  induction n generalizing s with
  | zero =>
    rw [steps_zero] at h
    cases h
    exact steps_one _
  | succ n ih =>
    obtain ⟨m, hm, h⟩ := steps_succ_eq_next h
    rw [steps_succ_of_next (n + 1) hm, ih h]

/-- R71, R133: an offered MUTE is performed in the next step from IDLE. -/
theorem step_of_mute_offer {s : State} {x y : Word32} {keep : Bool} {rest : List HostMove} (hp : s.phase = .idle)
    (hh : s.host = .command (commandWord 0x01 x y) keep :: rest) :
    step s = .next (((s.setHost rest).emitLevel .mute s.cfg.muteMutingLevel).report .ok) := by
  rw [step_of_offer hp hh, decodeCommand_mute (cmdOp_commandWord _ _ _)]
  exact exec_mute_of_idle _ _ hp

theorem Phase.bits_toNat_le (p : Phase) : p.bits.toNat ≤ 5 := by cases p <;> decide

end Sys2Proof.Machine

namespace Sys2Proof.Proofs

open Sys2Proof Sys2Proof.Machine

/-- Settles O29: the kept offer is still there when the SETGAIN has ended, and IDLE takes it up. -/
theorem muteOfferedDuringASetgainWaitsForItsDone : Obligations.MuteOfferedDuringASetgainWaitsForItsDone := by
  intro s a b rest hinv hp hh
  obtain ⟨-, -, hf, -, -⟩ := hinv
  obtain ⟨b0, b1, hl, hr, hpay⟩ := latchesFit_codesLatched hp hf
  have hc : s.HoldsCodes b0 b1 := ⟨hl, hr, by rw [hpay]; rfl, by rw [hpay]; rfl⟩
  obtain ⟨u, hrun, hend⟩ := setgain_ends hp hf (.inr ⟨_, _, hh⟩) hc
  have hlast : 7 - s.phase.bits.toNat = 6 - s.phase.bits.toNat + 1 := by
    have := s.phase.bits_toNat_le
    omega
  have hsteps := (steps_succ_last hrun).trans (step_of_mute_offer hend.phase (hend.host.trans hh))
  rw [← hlast] at hsteps
  refine ⟨_, b0, b1, hpay, hsteps, hend.phase, rfl, ?_⟩
  rw [(muteWrite_appends (u.setHost rest) u.cfg.muteMutingLevel).events, State.setHost_events, hend.events, hend.cfg]
  rfl

/-- Settles O44, access by access. -/
theorem payloadAccessesAreLittleEndianAndBounded : Obligations.PayloadAccessesAreLittleEndianAndBounded :=
  fun _ => ⟨fun _ v ha => memReadByte_after_memWriteByte v ha, fun w => memReads_after_memWritePair w,
    fun _ v ha => ⟨memWriteByte_of_ge v ha, memReadByte_of_ge ha⟩,
    fun _ w ha => ⟨memWritePair_of_ne w ha, memReadPair_of_ne ha⟩⟩

/-- Settles O19: the bits on the data line are those SER's next reply clocks out. -/
theorem transferStepSendsThePayloadAndLatchesTheAnswer :
    Obligations.TransferStepSendsThePayloadAndLatchesTheAnswer :=
  fun s b0 b1 hp h0 h1 =>
    ⟨clockedBits s.nextReply b0 b1, clockedBits_isPrefix _ _ _, clockedBits_of_success b0 b1,
      by rw [advance_of_sXfer_payload hp h0 h1, afterXfer_eq]⟩

/-- Settles O48: TX_DATA is the right code above the left one, and 16-bit numbers fit their ports. -/
theorem transferRequestCarriesTheLeftCodeLow : Obligations.TransferRequestCarriesTheLeftCodeLow := by
  intro b0 b1 ms x
  have hms : BitVec.ofNat 16 ms.toNat = ms := (BitVec.ofNat_toNat 16 ms).trans (BitVec.setWidth_eq ms)
  refine ⟨⟨b1 ++ b0, ?_, ?_, ?_⟩, ?_⟩
  · simp only [Event.pulse, hms]
    rfl
  · exact BitVec.extractLsb'_append_eq_right
  · exact BitVec.extractLsb'_append_eq_left
  · simp only [Event.pulse, hms]

/-- Settles O49: the bit at place i from the most significant end is the one numbered 7 - i. -/
theorem bytesGoOutMostSignificantBitFirst : Obligations.BytesGoOutMostSignificantBitFirst := by
  intro b
  simp [byteBits, List.range_succ, BitVec.getMsbD_eq_getLsbD]

end Sys2Proof.Proofs
end

section
/-! The statements of 30_encoding.md. Decoding and encoding are inverse and follow the opcode table's tiling of OP (R71
to R74, R81, R87), what a decimal literal that a word holds exactly is assembled to (R76, R84), which agent a step
moves (R71, R73, R157), what MAP, MUTE, UNMUTE and the reserved rows do (R73, R74, R133, R134), and that no run has a
zero delay (R80, R228). -/

namespace Sys2Proof

open Sys2Proof.Machine Sys2Proof.Laws

/-! ### The opcode space (R72, R87) -/

theorem opIn_iff {op : BitVec 8} {lo hi : Nat} : opIn op lo hi = true ↔ lo ≤ op.toNat ∧ op.toNat ≤ hi := by
  simp [opIn]

/-- R87: the three operations, the OP 0 and the six reserved ranges cover the opcode space. -/
theorem op_cases (op : BitVec 8) :
    op = 0x01 ∨ op = 0x02 ∨ op = 0x03 ∨ op = 0x00 ∨ opIn op 0x04 0x07 = true ∨ opIn op 0x08 0x0F = true ∨
      opIn op 0x10 0x1F = true ∨ opIn op 0x20 0x3F = true ∨ opIn op 0x40 0x7F = true ∨ opIn op 0x80 0xFF = true := by
  simp only [opIn_iff]
  bv_omega

section Rows
variable {w : CmdWord}

theorem decodeCommand_illegal00 (h : cmdOp w = 0x00) : decodeCommand w = .illegal00 (cmdA w) (cmdB w) := by
  simp [decodeCommand, h]

/-- An OP from 0x04 on is none of the four single ones, so its size decides. -/
theorem decodeCommand_of_ge (h : 0x04 ≤ (cmdOp w).toNat) :
    decodeCommand w =
      if (cmdOp w).toNat < 0x08 then .illegal04 (cmdOp w) (cmdA w) (cmdB w)
      else if (cmdOp w).toNat < 0x10 then .illegal08 (cmdOp w) (cmdA w) (cmdB w)
      else if (cmdOp w).toNat < 0x20 then .illegal10 (cmdOp w) (cmdA w) (cmdB w)
      else if (cmdOp w).toNat < 0x40 then .illegal20 (cmdOp w) (cmdA w) (cmdB w)
      else if (cmdOp w).toNat < 0x80 then .illegal40 (cmdOp w) (cmdA w) (cmdB w)
      else .illegal80 (cmdOp w) (cmdA w) (cmdB w) := by
  unfold decodeCommand
  rw [if_neg (by bv_omega), if_neg (by bv_omega), if_neg (by bv_omega), if_neg (by bv_omega)]

theorem decodeCommand_illegal04 (h : opIn (cmdOp w) 0x04 0x07 = true) :
    decodeCommand w = .illegal04 (cmdOp w) (cmdA w) (cmdB w) := by
  obtain ⟨hlo, hhi⟩ := opIn_iff.1 h
  rw [decodeCommand_of_ge (by omega), if_pos (by omega)]

theorem decodeCommand_illegal08 (h : opIn (cmdOp w) 0x08 0x0F = true) :
    decodeCommand w = .illegal08 (cmdOp w) (cmdA w) (cmdB w) := by
  obtain ⟨hlo, hhi⟩ := opIn_iff.1 h
  rw [decodeCommand_of_ge (by omega), if_neg (by omega), if_pos (by omega)]

theorem decodeCommand_illegal10 (h : opIn (cmdOp w) 0x10 0x1F = true) :
    decodeCommand w = .illegal10 (cmdOp w) (cmdA w) (cmdB w) := by
  obtain ⟨hlo, hhi⟩ := opIn_iff.1 h
  rw [decodeCommand_of_ge (by omega), if_neg (by omega), if_neg (by omega), if_pos (by omega)]

theorem decodeCommand_illegal20 (h : opIn (cmdOp w) 0x20 0x3F = true) :
    decodeCommand w = .illegal20 (cmdOp w) (cmdA w) (cmdB w) := by
  obtain ⟨hlo, hhi⟩ := opIn_iff.1 h
  rw [decodeCommand_of_ge (by omega), if_neg (by omega), if_neg (by omega), if_neg (by omega), if_pos (by omega)]

theorem decodeCommand_illegal40 (h : opIn (cmdOp w) 0x40 0x7F = true) :
    decodeCommand w = .illegal40 (cmdOp w) (cmdA w) (cmdB w) := by
  obtain ⟨hlo, hhi⟩ := opIn_iff.1 h
  rw [decodeCommand_of_ge (by omega), if_neg (by omega), if_neg (by omega), if_neg (by omega), if_neg (by omega),
    if_pos (by omega)]

theorem decodeCommand_illegal80 (h : opIn (cmdOp w) 0x80 0xFF = true) :
    decodeCommand w = .illegal80 (cmdOp w) (cmdA w) (cmdB w) := by
  obtain ⟨hlo, hhi⟩ := opIn_iff.1 h
  rw [decodeCommand_of_ge (by omega), if_neg (by omega), if_neg (by omega), if_neg (by omega), if_neg (by omega),
    if_neg (by omega)]

end Rows

/-! ### Decoding and encoding (R71 to R74, R81) -/

theorem decode_encode {i : Instr} (h : i.wellFormed = true) : decode (encode i) = i := by
  cases i with
  | map w => rfl
  | mute a b => simp [encode, decode, decodeCommand_mute]
  | unmute a b => simp [encode, decode, decodeCommand_unmute]
  | setgain a b => simp [encode, decode, decodeCommand_setgain]
  | illegal00 a b => simp [encode, decode, decodeCommand_illegal00]
  | illegal04 op a b => simp [encode, decode, decodeCommand_illegal04, show opIn op 0x04 0x07 = true from h]
  | illegal08 op a b => simp [encode, decode, decodeCommand_illegal08, show opIn op 0x08 0x0F = true from h]
  | illegal10 op a b => simp [encode, decode, decodeCommand_illegal10, show opIn op 0x10 0x1F = true from h]
  | illegal20 op a b => simp [encode, decode, decodeCommand_illegal20, show opIn op 0x20 0x3F = true from h]
  | illegal40 op a b => simp [encode, decode, decodeCommand_illegal40, show opIn op 0x40 0x7F = true from h]
  | illegal80 op a b => simp [encode, decode, decodeCommand_illegal80, show opIn op 0x80 0xFF = true from h]

theorem decodeTableWord_of_port {nbits n : Nat} {p : PortWord} (h : portWordOfTable nbits n = .ok p) :
    decodeTableWord nbits n = some (decode p) := by
  simp only [decodeTableWord, h]

/-- A table word that is read has a port word, which is decoded. -/
theorem decodeTableWord_eq_some {nbits n : Nat} {i : Instr} (h : decodeTableWord nbits n = some i) :
    ∃ p, portWordOfTable nbits n = .ok p ∧ decode p = i := by
  unfold decodeTableWord at h
  split at h
  · cases h; exact ⟨_, ‹_›, rfl⟩
  · cases h

/-- A table word is taken for the port whose words have its length (R70, R82). -/
theorem portWordOfTable_nbits {nbits n : Nat} {p : PortWord} (h : portWordOfTable nbits n = .ok p) :
    nbits = p.nbits := by
  unfold portWordOfTable at h
  split_ifs at h <;> cases h <;> assumption

theorem decodeTableWord_encode {i : Instr} (h : i.wellFormed = true) :
    decodeTableWord (encode i).nbits (encode i).value = some i := by
  rw [decodeTableWord_of_port (portWordOfTable_value _), decode_encode h]

/-- The table word an instruction is laid out as decodes to it. -/
theorem decodeTableWord_of_encode {i : Instr} {nbits n : Nat} (h : i.wellFormed = true)
    (hbits : (encode i).nbits = nbits) (hvalue : (encode i).value = n) : decodeTableWord nbits n = some i := by
  rw [← hbits, ← hvalue, decodeTableWord_encode h]

theorem commandWord_of_op {w : CmdWord} {op : BitVec 8} (h : cmdOp w = op) : commandWord op (cmdA w) (cmdB w) = w :=
  h ▸ commandWord_fields w

/-- What a command word decodes to is well formed, and its encoding is the word. -/
theorem decodeCommand_spec (w : CmdWord) :
    (decodeCommand w).wellFormed = true ∧ encode (decodeCommand w) = .commandPort w := by
  have hword {op : BitVec 8} (h : cmdOp w = op) :
      PortWord.commandPort (commandWord op (cmdA w) (cmdB w)) = .commandPort w := by rw [commandWord_of_op h]
  rcases op_cases (cmdOp w) with h | h | h | h | h | h | h | h | h | h
  · rw [decodeCommand_mute h]; exact ⟨rfl, hword h⟩
  · rw [decodeCommand_unmute h]; exact ⟨rfl, hword h⟩
  · rw [decodeCommand_setgain h]; exact ⟨rfl, hword h⟩
  · rw [decodeCommand_illegal00 h]; exact ⟨rfl, hword h⟩
  · rw [decodeCommand_illegal04 h]; exact ⟨h, hword rfl⟩
  · rw [decodeCommand_illegal08 h]; exact ⟨h, hword rfl⟩
  · rw [decodeCommand_illegal10 h]; exact ⟨h, hword rfl⟩
  · rw [decodeCommand_illegal20 h]; exact ⟨h, hword rfl⟩
  · rw [decodeCommand_illegal40 h]; exact ⟨h, hword rfl⟩
  · rw [decodeCommand_illegal80 h]; exact ⟨h, hword rfl⟩

/-! ### The rows of the opcode table (R72, R87) -/

/-- Two words with equal operand fields are equal when their OPs are. -/
theorem commandWord_inj_op {op op' : BitVec 8} {a b : Word32} :
    commandWord op a b = commandWord op' a b ↔ op = op' :=
  ⟨fun h => by simpa using congrArg cmdOp h, fun h => h ▸ rfl⟩

/-- R72: a row looks at OP alone. -/
theorem matchesWord_eq (r : OpRow) (w : CmdWord) : r.matchesWord w = (cmdOp w &&& r.opMask == r.opMatch) := by
  rw [OpRow.matchesWord, ← commandWord_fields w, commandWord_and_mask, cmdOp_commandWord, Bool.eq_iff_iff, beq_iff_eq,
    beq_iff_eq, commandWord_inj_op]

/-- R72: the row a word decodes to is fixed by OP alone. -/
theorem mnemonic_decodeCommand (w : CmdWord) :
    (decodeCommand w).mnemonic = (decodeCommand (commandWord (cmdOp w) 0 0)).mnemonic := by
  simp only [decodeCommand, cmdOp_commandWord, apply_ite Instr.mnemonic]
  rfl

/-- R87, for each of the 256 OPs: one row takes it, and decoding picks that row. -/
theorem rows_of_op : ∀ op : BitVec 8,
    (commandRows.filter fun r => op &&& r.opMask == r.opMatch).map OpRow.mnemonic =
      [(decodeCommand (commandWord op 0 0)).mnemonic] := by
  decide

end Sys2Proof

namespace Sys2Proof.Machine

/-! ### Decimal literals (R75, R76, R84) -/

theorem expField_lt (w : Word32) : expField w < 2 ^ 8 := (w.extractLsb' 23 8).isLt

theorem sigField_lt (w : Word32) : sigField w < 2 ^ 23 := (w.extractLsb' 0 23).isLt

theorem roundNearestEven_of_mul (q : Nat) {d : Nat} (hd : 0 < d) : roundNearestEven (q * d) d = q := by
  simp [roundNearestEven, hd]

theorem magnitude_zero (m : Nat) : magnitude 0 m = m := rfl

theorem magnitude_succ (k m : Nat) : magnitude (k + 1) m = (2 ^ 23 + m) * 2 ^ k := rfl

/-- The low bits of a magnitude that a 24-bit significand leaves no room for are as many as the exponent says. -/
theorem log2_magnitude_sub (e : Nat) {m : Nat} (hm : m < 2 ^ 23) : Nat.log2 (magnitude e m) - 23 = e - 1 := by
  cases e with
  | zero =>
    have hlog : Nat.log 2 m < 24 := Nat.log_lt_of_lt_pow' (by decide) (hm.trans (by decide))
    rw [magnitude_zero, Nat.log2_eq_log_two]
    omega
  | succ k =>
    have hlog : Nat.log2 ((2 ^ 23 + m) * 2 ^ k) = 23 + k := by
      refine (Nat.log2_eq_iff (by positivity)).2 ⟨?_, ?_⟩
      · rw [pow_add]
        exact Nat.mul_le_mul_right _ (Nat.le_add_right _ _)
      · rw [show 23 + k + 1 = 24 + k by omega, pow_add]
        exact Nat.mul_lt_mul_of_pos_right (by omega) (by positivity)
    rw [magnitude_succ, hlog]
    omega

/-- A magnitude is a whole number of the last places its significand keeps, and with the exponent added that number is
the low 31 bits of the word (R75, R76). -/
theorem exists_significand (e m : Nat) :
    ∃ q, magnitude e m = q * 2 ^ (e - 1) ∧ (e - 1) * 2 ^ 23 + q = e * 2 ^ 23 + m := by
  cases e with
  | zero => exact ⟨m, by simp [magnitude_zero], rfl⟩
  | succ k => exact ⟨2 ^ 23 + m, rfl, by simp only [Nat.add_sub_cancel]; omega⟩

/-- R84: a literal that is exactly a magnitude is given that magnitude's exponent and significand. -/
theorem literalMagnitude_of_exact {n d e m : Nat} (hd : 0 < d) (he : e < 255) (hm : m < 2 ^ 23)
    (h : n * 2 ^ 149 = magnitude e m * d) : literalMagnitude n d = e * 2 ^ 23 + m := by
  have hk : Nat.log2 (n * 2 ^ 149 / d) - 23 = e - 1 := by
    rw [h, Nat.mul_div_cancel _ hd, log2_magnitude_sub e hm]
  obtain ⟨q, hq, hlow⟩ := exists_significand e m
  have hround : roundNearestEven (n * 2 ^ 149) (d * 2 ^ (e - 1)) = q := by
    rw [h, hq, mul_assoc, mul_comm _ d]
    exact roundNearestEven_of_mul q (by positivity)
  have hfit : (e - 1) * 2 ^ 23 + q ≤ 0x7F800000 := by omega
  simp only [literalMagnitude, hk, hround]
  rw [Nat.min_eq_right hfit, hlow]

/-- The word with this sign, exponent and significand (R75). -/
def wordOfFields (neg : Bool) (e m : Nat) : Word32 := BitVec.ofBool neg ++ BitVec.ofNat 31 (e * 2 ^ 23 + m)

section Fields
variable (neg : Bool) {e m : Nat} (he : e < 2 ^ 8) (hm : m < 2 ^ 23)
include he hm

theorem wordOfFields_toNat : (wordOfFields neg e m).toNat = neg.toNat * 2 ^ 31 + (e * 2 ^ 23 + m) := by
  have hlow : e * 2 ^ 23 + m < 2 ^ 31 := by omega
  rw [wordOfFields, BitVec.toNat_append, BitVec.toNat_ofNat, Nat.mod_eq_of_lt hlow, BitVec.toNat_ofBool,
    ← Nat.shiftLeft_add_eq_or_of_lt hlow, Nat.shiftLeft_eq]

theorem signBit_wordOfFields : signBit (wordOfFields neg e m) = BitVec.ofBool neg := by
  apply BitVec.eq_of_toNat_eq
  rw [signBit, BitVec.extractLsb'_toNat, wordOfFields_toNat neg he hm, BitVec.toNat_ofBool, Nat.shiftRight_eq_div_pow]
  have := neg.toNat_le
  omega

theorem expField_wordOfFields : expField (wordOfFields neg e m) = e := by
  rw [expField, BitVec.extractLsb'_toNat, wordOfFields_toNat neg he hm, Nat.shiftRight_eq_div_pow]
  omega

theorem sigField_wordOfFields : sigField (wordOfFields neg e m) = m := by
  rw [sigField, BitVec.extractLsb'_toNat, wordOfFields_toNat neg he hm, Nat.shiftRight_eq_div_pow]
  omega

end Fields

/-- R76: the value of the word of finite fields. -/
theorem dec32Q_wordOfFields (neg : Bool) {e m : Nat} (he : e < 255) (hm : m < 2 ^ 23) :
    dec32Q (wordOfFields neg e m) =
      .finite (if neg then -((magnitude e m : ℚ) / 2 ^ 149) else (magnitude e m : ℚ) / 2 ^ 149) := by
  have he' : e < 2 ^ 8 := by omega
  rw [dec32Q_eq_fields, signBit_wordOfFields neg he' hm, expField_wordOfFields neg he' hm,
    sigField_wordOfFields neg he' hm, if_neg (by omega), if_neg (by omega)]
  cases neg <;> rfl

/-- R76: a word whose value is not below 0 is finite and has its magnitude as its value, the negative zero too. -/
theorem magnitude_of_nonneg {w : Word32} {v : ℚ} (h : dec32Q w = .finite v) (hv : 0 ≤ v) :
    expField w < 255 ∧ (magnitude (expField w) (sigField w) : ℚ) / 2 ^ 149 = v := by
  have hfit := expField_lt w
  have hmag : 0 ≤ (magnitude (expField w) (sigField w) : ℚ) / 2 ^ 149 := by positivity
  rw [dec32Q_eq_fields] at h
  split_ifs at h with hnan hinf hsign hsign <;> injection h with h
  · exact ⟨by omega, h⟩
  · exact ⟨by omega, by linarith⟩

/-- R84: the word of a literal whose magnitude some word has, by the fields of that word. -/
theorem decimal_word_of_exact (neg : Bool) {digits places : Nat} {w : Word32}
    (he : expField w < 255)
    (h : (magnitude (expField w) (sigField w) : ℚ) / 2 ^ 149 = (digits : ℚ) / 10 ^ places) :
    (AsmOperand.decimal neg digits places).word = wordOfFields neg (expField w) (sigField w) := by
  have hunits : digits * 2 ^ 149 = magnitude (expField w) (sigField w) * 10 ^ places := by
    rw [div_eq_div_iff (by positivity) (by positivity)] at h
    exact_mod_cast h.symm
  rw [AsmOperand.word, literalMagnitude_of_exact (by positivity) he (sigField_lt w) hunits, wordOfFields]

/-! ### Which agent a step moves (R71, R73, R157) -/

section OneStep
variable {s : State} {rest : List HostMove}

theorem step_of_mapIn {w : Word32} (hh : s.host = .mapIn w :: rest) : step s = exec (.map w) (s.setHost rest) := by
  simp only [step, fetch, hh]
  rfl

theorem step_of_silent (hh : s.host = []) : step s = advance s := by
  simp only [step, fetch, hh]

theorem step_of_quiet (hh : s.host = .quiet :: rest) : step s = advance (s.setHost rest) := by
  simp only [step, fetch, hh]

theorem step_of_withdrawn {w : CmdWord} (hp : s.phase ≠ .idle) (hh : s.host = .command w false :: rest) :
    step s = advance (s.setHost rest) := by
  have hr : s.cmdReady = false := by simpa [← cmdReady_iff] using hp
  simp [step, fetch, hh, hr]

end OneStep

theorem withFetchWord_of_port {nbits n : Nat} {p : PortWord} (s : State) (h : portWordOfTable nbits n = .ok p) :
    s.withFetchWord nbits n = s.offer p := by
  simp only [State.withFetchWord, h]

theorem step_offer_mapPort (w : Word32) (s : State) : step (s.offer (.mapPort w)) = exec (decode (.mapPort w)) s :=
  step_of_mapIn rfl

theorem step_offer_commandPort (w : CmdWord) (s : State) :
    step (s.offer (.commandPort w)) = exec (decode (.commandPort w)) { s with phase := .idle } :=
  step_of_offer rfl rfl

/-! ### What a command in IDLE writes -/

/-- R133, R134: a mute write is the line's level and two events. -/
theorem muteWrite_eq (v : Level) (s : State) :
    (s.emitLevel .mute v).report .ok =
      { s with muteLevel := some v, events := s.events ++ [.setLevel .mute v, .done .ok] } := by
  unfold State.emitLevel State.report State.emit State.putLevel
  simp only [List.append_assoc, List.cons_append, List.nil_append]

theorem not_busy_of_idle {s : State} (hp : s.phase = .idle) : s.busy = false := by simp [State.busy, hp]

/-! ### SER's answer -/

/-- R164: the scripted reply comes before any free one (log 3). -/
theorem nextReply_of_script {s : State} {r : SerReply} {rest : List SerReply} (h : s.ser = r :: rest) :
    s.nextReply = r := by
  simp only [State.nextReply, h]

/-! ### A MAP beside the sequencer (R112) -/

section MapBeside
variable {s t : State}

/-- The step out of S_RELEASE reads RES and the two code latches, and no port. -/
theorem stepRelease_driveMapIn (w : Word32) (h : stepRelease s = .next t) :
    stepRelease (s.driveMapIn w) = .next (t.driveMapIn w) := by
  obtain ⟨a, ha, h⟩ := readLatch_eq_next h
  simp only [stepRelease, State.driveMapIn_res, ha, readLatch_some]
  cases a with
  | success =>
    obtain ⟨l, hl, h⟩ := readLatch_eq_next h
    obtain ⟨r, hr, h⟩ := readLatch_eq_next h
    cases h
    rw [settleGhost_of_codes (l := l) (r := r) (by simpa using hl) (by simpa using hr)]
    rfl
  | timeout => cases h; rfl
  | error => cases h; rfl

theorem advance_driveMapIn (w : Word32) (h : advance s = .next t) :
    advance (s.driveMapIn w) = .next (t.driveMapIn w) := by
  rcases advance_eq_next h with ⟨hp, rfl⟩ | ⟨hp, rfl⟩ | ⟨hp, rfl⟩ | ⟨hp, b0, b1, h0, h1, rfl⟩ | ⟨hp, rfl⟩ | ⟨hp, -⟩
  · exact advance_of_idle hp
  · exact advance_of_sAssert hp
  · exact advance_of_sSetup hp
  · exact advance_of_sXfer_payload hp h0 h1
  · exact advance_of_sHold hp
  · simp only [advance, hp] at h
    simp only [advance, State.driveMapIn_phase, hp]
    exact stepRelease_driveMapIn w h

end MapBeside

/-! ### Delays (R80, R228) -/

/-- The delay port carries this number, and it is no zero delay. -/
def DelayFits (ms : Nat) : Prop := 0 < ms ∧ ms < 2 ^ 16

/-- Every Delay of the run so far fits. -/
def DelaysFit (es : List Event) : Prop := ∀ ms, .delay ms ∈ es → DelayFits ms

section Delays
variable {s t : State} {es fs : List Event}

theorem delaysFit_append : DelaysFit (es ++ fs) ↔ DelaysFit es ∧ DelaysFit fs := by
  simp only [DelaysFit, List.mem_append, or_imp, forall_and]

theorem delaysFit_of_none (h : ∀ ms, .delay ms ∉ es) : DelaysFit es := fun ms hms => absurd hms (h ms)

/-- A 16-bit constant other than 0 is a delay the port carries. -/
theorem delaysFit_delay {ms : BitVec 16} (h : ms ≠ 0) : DelaysFit [.delay ms.toNat] := by
  have hfits : DelayFits ms.toNat := ⟨(word16_ne_zero_iff ms).1 h, ms.isLt⟩
  simpa [DelaysFit] using hfits

theorem delaysFit_of_appends (ha : s.Appends t es) (hs : DelaysFit s.events) (hes : DelaysFit es) :
    DelaysFit t.events := by
  rw [ha.events, delaysFit_append]
  exact ⟨hs, hes⟩

/-- Of CTRL's moves two emit a Delay, each with its own constant of the record, which is not 0 (R23, R24). -/
theorem advance_keeps_delaysFit (hinv : s.Inv) (hs : DelaysFit s.events) (h : advance s = .next t) :
    DelaysFit t.events := by
  obtain ⟨hcfg, -, hlatches, -, -⟩ := hinv
  obtain ⟨-, -, hsetup, hhold, -, -⟩ := legalConfig_spec hcfg
  rcases advance_moves hlatches h with ⟨-, rfl⟩ | ⟨-, rfl⟩ | ⟨-, rfl⟩ | ⟨-, l, r, rfl⟩ | ⟨-, rfl⟩ |
    ⟨-, a, l, r, -, rfl⟩
  · exact hs
  · exact delaysFit_of_appends (afterAssert_appends s) hs (delaysFit_of_none (by simp))
  · exact delaysFit_of_appends (afterSetup_appends s) hs (delaysFit_delay hsetup)
  · exact delaysFit_of_appends (afterXfer_appends s l r) hs (delaysFit_of_none (by simp))
  · exact delaysFit_of_appends (afterHold_appends s) hs (delaysFit_delay hhold)
  · exact delaysFit_of_appends (afterRelease_appends s a l r) hs (delaysFit_of_none (by simp))

/-- No meaning emits a Delay. -/
theorem exec_keeps_delaysFit {i : Instr} (hs : DelaysFit s.events) (h : exec i s = .next t) : DelaysFit t.events := by
  rcases exec_eq_next h with ⟨w, -, rfl⟩ | ⟨-, w, rfl⟩ | ⟨-, -, v, rfl⟩ | ⟨-, x, y, -, rfl⟩ | ⟨-, op, rfl⟩
  · exact hs
  · exact hs
  · exact delaysFit_of_appends (muteWrite_appends s v) hs (delaysFit_of_none (by simp))
  · exact hs
  · exact delaysFit_of_appends (raiseFailure_appends s _) hs (delaysFit_of_none (by simp))

/-- The invariant together with delays that fit. -/
def State.InvWithDelays (s : State) : Prop := s.Inv ∧ DelaysFit s.events

theorem step_keeps_invWithDelays (hs : s.InvWithDelays) (h : step s = .next t) : t.InvWithDelays :=
  step_keeps (P := State.InvWithDelays) (fun _ moves hu => ⟨setHost_inv moves hu.1, hu.2⟩)
    (fun u v hu h => ⟨advance_keeps_inv u v hu.1 h, advance_keeps_delaysFit hu.1 hu.2 h⟩)
    (fun i u v hu h => ⟨exec_keeps_inv i u v hu.1 h, exec_keeps_delaysFit hu.2 h⟩) hs h

end Delays

/-- What every step keeps, a run keeps. -/
theorem steps_keep {P : State → Prop} (hstep : ∀ s t, P s → step s = .next t → P t) {n : Nat} {s t : State}
    (hs : P s) (h : steps n s = .next t) : P t := by
  induction n generalizing s with
  | zero => cases h; exact hs
  | succ n ih =>
    obtain ⟨u, hu, h⟩ := steps_succ_eq_next h
    exact ih (hstep s u hs hu) h

/-- The environment a constructed machine meets does not touch the invariant. -/
theorem init_with_script_inv {c : Config} (moves : List HostMove) (replies : List SerReply)
    (h : legalConfig c = true) : State.Inv { State.init c with host := moves, ser := replies } := by
  obtain ⟨hinv, -, -⟩ := init_goodRun h
  exact inv_of_same_block rfl rfl rfl rfl rfl hinv

end Sys2Proof.Machine

namespace Sys2Proof.Proofs

open Sys2Proof Sys2Proof.Machine

/-- Settles O2, by the row of each constructor. -/
theorem encodedInstructionsDecodeBack : Obligations.EncodedInstructionsDecodeBack :=
  fun _ h => ⟨decode_encode h, decodeTableWord_encode h⟩

/-- Settles O3, port by port; on the command port by the range OP lies in. -/
theorem everyPortWordIsTheEncodingOfWhatItDecodesTo : Obligations.EveryPortWordIsTheEncodingOfWhatItDecodesTo := by
  intro p
  cases p with
  | mapPort w => exact ⟨rfl, rfl⟩
  | commandPort w => exact decodeCommand_spec w

/-- Settles O4: the rows and the decoder both look at OP alone, and R87 tiles its 256 values. -/
theorem everyCommandWordMatchesExactlyItsRow : Obligations.EveryCommandWordMatchesExactlyItsRow := by
  intro w
  simp only [matchesWord_eq]
  rw [mnemonic_decodeCommand]
  exact rows_of_op (cmdOp w)

/-- Settles O5: the literal gets the exponent and the significand of the word that has its magnitude. -/
theorem exactLiteralsAssembleToTheirValue : Obligations.ExactLiteralsAssembleToTheirValue := by
  intro neg digits places w h
  obtain ⟨he, hvalue⟩ := magnitude_of_nonneg h (by positivity)
  rw [decimal_word_of_exact neg he hvalue, dec32Q_wordOfFields neg he (sigField_lt w), hvalue]

/-- Settles O37: every step keeps the invariant and the delays in range, and construction starts with no event. -/
theorem noRunHasAZeroDelay : Obligations.NoRunHasAZeroDelay := by
  refine ⟨fun s t hinv hs h => (step_keeps_invWithDelays ⟨hinv, hs⟩ h).2, fun c moves replies n t hc h => ?_⟩
  have hstart : State.InvWithDelays { State.init c with host := moves, ser := replies } :=
    ⟨init_with_script_inv moves replies hc, nofun⟩
  exact (steps_keep (fun _ _ => step_keeps_invWithDelays) hstart h).2

/-- Settles O43: no move of CTRL's reads or writes MAP_IN. -/
theorem mapCommutesWithTheSequencer : Obligations.MapCommutesWithTheSequencer :=
  fun w _ _ h => advance_driveMapIn w h

/-- Settles O50, class by class. -/
theorem decodingAnOperandIsExact : Obligations.DecodingAnOperandIsExact := by
  intro w
  rw [dec32Q_eq_toRational]
  cases dec32 w <;> rfl

/-- Settles O1: each word is the layout of its instruction. -/
theorem specVectorWordsDecodeToTheirInstructions : Obligations.SpecVectorWordsDecodeToTheirInstructions :=
  ⟨decodeTableWord_of_encode rfl rfl (by decide), decodeTableWord_of_encode rfl rfl (by decide),
    decodeTableWord_of_encode rfl rfl (by decide), decodeTableWord_of_encode rfl rfl (by decide),
    decodeTableWord_of_encode rfl rfl (by decide), decodeTableWord_of_encode rfl rfl (by decide),
    decodeTableWord_of_encode (by decide) rfl (by decide), decodeTableWord_of_encode (by decide) rfl (by decide),
    decodeTableWord_of_encode (by decide) rfl (by decide)⟩

/-- Settles O6: the word HOST moves with decodes back to the instruction it encodes. -/
theorem stepRunsTheDecodedInstruction : Obligations.StepRunsTheDecodedInstruction := by
  intro i s rest hwf
  have hdecode := decode_encode hwf
  refine ⟨fun w hw hh => ?_, fun w keep hw hh hp => ?_⟩
  · rw [← hdecode, hw]
    exact step_of_mapIn hh
  · rw [← hdecode, hw]
    exact step_of_offer hp hh

/-- Settles O7, by the port of the word's length. -/
theorem placedTableWordRunsNext : Obligations.PlacedTableWordRunsNext := by
  intro s nbits n i h
  obtain ⟨p, hp, rfl⟩ := decodeTableWord_eq_some h
  rw [withFetchWord_of_port s hp, portWordOfTable_nbits hp]
  cases p with
  | mapPort w => exact .inl ⟨rfl, step_offer_mapPort w s⟩
  | commandPort w => exact .inr ⟨rfl, step_offer_commandPort w s⟩

/-- Settles O8, by HOST's head move. -/
theorem sequencerMovesWhenNothingIsAccepted : Obligations.SequencerMovesWhenNothingIsAccepted :=
  fun _ rest => ⟨step_of_silent, step_of_quiet, fun w hh hp => step_of_busy hp (.inr ⟨w, rest, hh⟩),
    fun _ hh hp => step_of_withdrawn hp hh⟩

/-- Settles O10: a MAP looks at no phase. -/
theorem mapAnswersInEveryPhase : Obligations.MapAnswersInEveryPhase :=
  fun _ _ => ⟨_, rfl, rfl, rfl⟩

/-- Settles O11. -/
theorem muteWritesTheMutingLevelAndReportsOk : Obligations.MuteWritesTheMutingLevelAndReportsOk :=
  ⟨fun _ => decodeCommand_mute, fun a b s hp =>
    ⟨_, exec_mute_of_idle a b hp, not_busy_of_idle hp, muteWrite_eq _ s⟩⟩

/-- Settles O12. -/
theorem unmuteWritesThePassthroughLevelAndReportsOk : Obligations.UnmuteWritesThePassthroughLevelAndReportsOk :=
  ⟨fun _ => decodeCommand_unmute, fun a b s hp =>
    ⟨_, exec_unmute_of_idle a b hp, not_busy_of_idle hp, muteWrite_eq _ s⟩⟩

/-- Settles O14: the seven rows share one meaning, and it is accepted in IDLE. -/
theorem everyReservedRowReportsIllegalCommandOnly : Obligations.EveryReservedRowReportsIllegalCommandOnly := by
  intro op a b s hp
  have hillegal (op : BitVec 8) := illegalCommand_of_idle op a b hp
  exact ⟨hillegal 0x00, hillegal op, hillegal op, hillegal op, hillegal op, hillegal op, hillegal op⟩

/-- Settles O16: raising is one Done event, and each failure has its own Result. -/
theorem raisingAFailureRecordsOnlyItsResult : Obligations.RaisingAFailureRecordsOnlyItsResult :=
  ⟨fun _ _ => rfl, rfl, rfl, fun _ => rfl, rfl⟩

/-- Settles O21: a scripted reply is the next one. -/
theorem serStatusIsReadAsItsAnswer : Obligations.SerStatusIsReadAsItsAnswer :=
  ⟨rfl, rfl, rfl, rfl, fun s r rest h => by rw [State.serAnswer, nextReply_of_script h]⟩

/-- Settles O58, port by port. -/
theorem lineAndCompletionPortsCarryTheirCodes : Obligations.LineAndCompletionPortsCarryTheirCodes :=
  ⟨rfl, rfl, rfl, rfl, rfl, rfl, rfl, rfl⟩

end Sys2Proof.Proofs
end

section
/-! The statements of 40_gain_mapper.md. The rational value of a configuration word and raw in whole units (R100, R101),
the code of each class of operand over the rationals (R102 to R105), and from these the two infinities (R105), the zeros
and subnormals (R106), the order of the codes (R109), the saturation thresholds (R110) and the half-decibel steps
(R111). -/

namespace Sys2Proof.Machine

/-! ### Whole units read as rationals (R100, R101) -/

theorem oneUnits_rat : (oneUnits : ℚ) = 2 ^ 149 := by norm_num [oneUnits]

theorem configValue_of_finite {w : Word32} {v : ℚ} (h : dec32Q w = .finite v) : configValue w = v := by
  rw [configValue, h]

/-- R100: the value of a configuration word is its number of units of 2^(-149). -/
theorem configValue_eq_units (w : Word32) : configValue w = (configUnits w : ℚ) / oneUnits := by
  rw [configValue, configUnits, dec32Q_eq_toRational, oneUnits_rat]
  cases dec32 w <;> simp [Decoded.toRational]

theorem configValue_pos_iff (w : Word32) : 0 < configValue w ↔ 0 < configUnits w := by
  have hone : (0 : ℚ) < oneUnits := by exact_mod_cast oneUnits_pos
  rw [configValue_eq_units, div_pos_iff_of_pos_right hone, Int.cast_pos]

/-- R101: raw over the rationals is raw in units of 2^(-298). -/
theorem rawQ_of_units (c : Config) (n : Int) : rawQ c ((n : ℚ) / oneUnits) = (rawUnits c n : ℚ) / oneRaw := by
  have hone : (oneUnits : ℚ) ≠ 0 := by exact_mod_cast oneUnits_pos.ne'
  rw [rawQ, configValue_eq_units, configValue_eq_units, rawUnits, oneRaw]
  push_cast
  field_simp

/-! ### Clamping and rounding (R102, R103) -/

/-- R102, R103: clamping to 0..255 and then rounding toward zero is clamping the floor. -/
theorem truncQ_clampQ (q : ℚ) : truncQ (clampQ q 0 255) = max 0 (min 255 ⌊q⌋) := by
  unfold clampQ
  split_ifs with hlow hhigh
  · have hfloor : ⌊q⌋ < 0 := Int.floor_lt.2 (by exact_mod_cast hlow)
    simp only [truncQ, le_refl, if_true, Int.floor_zero]
    omega
  · have hfloor : 255 ≤ ⌊q⌋ := Int.le_floor.2 (by exact_mod_cast hhigh.le)
    simp only [truncQ, Nat.ofNat_nonneg, if_true, Int.floor_ofNat]
    omega
  · have hnonneg : 0 ≤ ⌊q⌋ := Int.floor_nonneg.2 (not_lt.1 hlow)
    have hle : ⌊q⌋ ≤ 255 := by
      exact_mod_cast (Int.floor_le q).trans (not_lt.1 hhigh)
    rw [truncQ, if_pos (not_lt.1 hlow)]
    omega

/-- R102, R103: the same in whole units. -/
theorem clampInt_ediv {k : Int} (hk : 0 < k) (x : Int) :
    clampInt x 0 (255 * k) / k = max 0 (min 255 (x / k)) := by
  unfold clampInt
  split_ifs with hlow hhigh
  · have hdiv : x / k < 0 := Int.ediv_neg_of_neg_of_pos hlow hk
    rw [Int.zero_ediv]
    omega
  · have hdiv : 255 ≤ x / k := (Int.le_ediv_iff_mul_le hk).2 hhigh.le
    rw [Int.mul_ediv_cancel _ hk.ne']
    omega
  · have hnonneg : 0 ≤ x / k := Int.ediv_nonneg (not_lt.1 hlow) hk.le
    have hle : x / k < 256 := Int.ediv_lt_of_lt_mul hk (by omega)
    omega

theorem floor_div_oneRaw (x : Int) : ⌊(x : ℚ) / oneRaw⌋ = x / oneRaw := by
  have h := Rat.floor_intCast_div_natCast x oneRaw.toNat
  rwa [← Int.cast_natCast, Int.toNat_of_nonneg oneRaw_pos.le] at h

/-! ### The code of each class of operand (R104, R105) -/

section Codes
variable {c : Config} {w : Word32}

theorem infiniteCode_toNat (c : Config) (positive : Bool) :
    ((infiniteCode c positive).toNat : ℤ) = if decide (0 < configValue c.slope) = positive then 255 else 0 := by
  simp only [configValue_pos_iff, infiniteCode, beq_iff_eq]
  split <;> rfl

/-- R101 to R103: in units of 2^(-149) the code of a finite operand is the clamped floor of raw. -/
theorem finiteCode_toNat_eq_floor (c : Config) (n : Int) :
    ((finiteCode c n).toNat : ℤ) = max 0 (min 255 ⌊rawQ c ((n : ℚ) / oneUnits)⌋) := by
  rw [finiteCode_toNat, saturatedUnits, clampInt_ediv oneRaw_pos, rawQ_of_units, floor_div_oneRaw]

/-- R100 to R105, class by class; that NAN_CODE fits a byte matters to a NaN only. -/
theorem gainCode_eq_rationalCode (hnan : dec32Q w = .nan → c.nanCode ≤ 255) :
    ((gainCode c w).toNat : ℤ) = rationalCode c w := by
  rw [rationalCode, dec32Q_eq_toRational]
  rcases gainCode_cases c w with ⟨hd, hcode⟩ | ⟨hd, hcode⟩ | ⟨hd, hcode⟩ | ⟨n, hd, hcode⟩ <;>
    simp only [hd, hcode, Decoded.toRational]
  · have hclass : dec32Q w = .nan := by rw [dec32Q_eq_toRational, hd, Decoded.toRational]
    have hfit : c.nanCode < 2 ^ 8 := Nat.lt_succ_of_le (hnan hclass)
    rw [BitVec.toNat_ofNat, Nat.mod_eq_of_lt hfit]
  · simp [infiniteCode_toNat]
  · by_cases hpos : 0 < configValue c.slope <;> simp [infiniteCode_toNat, hpos]
  · rw [finiteCode_toNat_eq_floor, truncQ_clampQ, oneUnits_rat]

theorem gainCode_eq_of_rationalCode {k : Code} (hne : dec32Q w ≠ .nan) (h : rationalCode c w = k.toNat) :
    gainCode c w = k := by
  apply BitVec.eq_of_toNat_eq
  rw [← gainCode_eq_rationalCode fun hnan => absurd hnan hne] at h
  exact_mod_cast h

/-- R104. -/
theorem gainCode_of_nan (hc : legalConfig c = true) (h : dec32Q w = .nan) : (gainCode c w).toNat = c.nanCode := by
  obtain ⟨-, -, -, -, -, hn⟩ := legalConfig_spec hc
  have hcode := gainCode_eq_rationalCode (c := c) (w := w) fun _ => hn
  simp only [rationalCode, h] at hcode
  exact_mod_cast hcode

/-- R105. -/
theorem gainCode_of_posInf (h : dec32Q w = .posInf) :
    gainCode c w = if 0 < configValue c.slope then 255 else 0 := by
  refine gainCode_eq_of_rationalCode (by simp [h]) ?_
  simp only [rationalCode, h]
  split <;> rfl

/-- R105. -/
theorem gainCode_of_negInf (h : dec32Q w = .negInf) :
    gainCode c w = if 0 < configValue c.slope then 0 else 255 := by
  refine gainCode_eq_of_rationalCode (by simp [h]) ?_
  simp only [rationalCode, h]
  split <;> rfl

/-- R101 to R103: the code of a finite operand is the floor of raw, limited to 0..255; of the record it reads SLOPE and
OFFSET only. -/
theorem gainCode_of_finite {v : ℚ} (h : dec32Q w = .finite v) :
    ((gainCode c w).toNat : ℤ) = max 0 (min 255 ⌊rawQ c v⌋) := by
  rw [gainCode_eq_rationalCode (by simp [h])]
  simp only [rationalCode, h, truncQ_clampQ]

/-! ### The saturation thresholds (R110) -/

theorem code_eq_iff_toNat {x y : Code} : x = y ↔ (x.toNat : ℤ) = y.toNat := by
  rw [Int.natCast_inj, BitVec.toNat_inj]

theorem gainCode_eq_zero_iff {v : ℚ} (h : dec32Q w = .finite v) : gainCode c w = 0 ↔ rawQ c v < 1 := by
  have hfloor : ⌊rawQ c v⌋ < 1 ↔ rawQ c v < 1 := by simpa using Int.floor_lt (z := 1) (a := rawQ c v)
  rw [← hfloor, code_eq_iff_toNat, gainCode_of_finite h]
  simp only [BitVec.ofNat_eq_ofNat, BitVec.toNat_ofNat]
  omega

theorem gainCode_eq_max_iff {v : ℚ} (h : dec32Q w = .finite v) : gainCode c w = 255 ↔ 255 ≤ rawQ c v := by
  have hfloor : 255 ≤ ⌊rawQ c v⌋ ↔ 255 ≤ rawQ c v := by simpa using Int.le_floor (z := 255) (a := rawQ c v)
  rw [← hfloor, code_eq_iff_toNat, gainCode_of_finite h]
  simp only [BitVec.ofNat_eq_ofNat, BitVec.toNat_ofNat]
  omega

end Codes

/-! ### Raw against a bound, for either sign of SLOPE (R109, R110) -/

section Raw
variable {c : Config}

theorem rawQ_lt_iff_of_pos (h : 0 < configValue c.slope) (v b : ℚ) :
    rawQ c v < b ↔ v < (b - configValue c.offset) / configValue c.slope := by
  rw [lt_div_iff₀' h, rawQ, lt_sub_iff_add_lt]

theorem le_rawQ_iff_of_pos (h : 0 < configValue c.slope) (v b : ℚ) :
    b ≤ rawQ c v ↔ (b - configValue c.offset) / configValue c.slope ≤ v := by
  rw [div_le_iff₀' h, rawQ, sub_le_iff_le_add]

theorem rawQ_lt_iff_of_neg (h : configValue c.slope < 0) (v b : ℚ) :
    rawQ c v < b ↔ (b - configValue c.offset) / configValue c.slope < v := by
  rw [div_lt_iff_of_neg' h, rawQ, lt_sub_iff_add_lt]

theorem le_rawQ_iff_of_neg (h : configValue c.slope < 0) (v b : ℚ) :
    b ≤ rawQ c v ↔ v ≤ (b - configValue c.offset) / configValue c.slope := by
  rw [le_div_iff_of_neg' h, rawQ, sub_le_iff_le_add]

theorem rawQ_mono_of_pos (h : 0 < configValue c.slope) : Monotone (rawQ c) := fun _ _ hv =>
  add_le_add_left (mul_le_mul_of_nonneg_left hv h.le) _

theorem rawQ_anti_of_neg (h : configValue c.slope < 0) : Antitone (rawQ c) := fun _ _ hv =>
  add_le_add_left (mul_le_mul_of_nonpos_left hv h.le) _

end Raw

/-- R21, R22, R101: raw under the default record. -/
theorem default_rawQ (v : ℚ) : rawQ Config.default v = 2 * v + 192 := by
  obtain ⟨-, -, hslope, hoffset, -⟩ := Proofs.constructionLeavesTheResetValues
  rw [rawQ, configValue_of_finite hslope, configValue_of_finite hoffset]

/-! ### The order of the codes (R109) -/

/-- R109: two operands in the order of the extended reals: an infinity at its end, or two finite values. -/
theorem DecodedQ.atMost_cases {x y : DecodedQ} (h : x.atMost y) :
    x = .negInf ∨ y = .posInf ∨ ∃ u v, x = .finite u ∧ y = .finite v ∧ u ≤ v := by
  cases x <;> cases y <;> simp_all [DecodedQ.atMost]

theorem code_toNat_le (x : Code) : x.toNat ≤ (255 : Code).toNat := Nat.le_of_lt_succ x.isLt

theorem gainCode_mono_of_rawQ {c : Config} {w w' : Word32} {u v : ℚ} (hw : dec32Q w = .finite u)
    (hw' : dec32Q w' = .finite v) (h : rawQ c u ≤ rawQ c v) : (gainCode c w).toNat ≤ (gainCode c w').toNat := by
  zify
  rw [gainCode_of_finite hw, gainCode_of_finite hw']
  exact max_le_max_left _ (min_le_min_left _ (Int.floor_le_floor h))

/-! ### Zeros, subnormals and infinities as words (R105, R106) -/

theorem configValue_slope_ne_zero {c : Config} (h : legalConfig c = true) : configValue c.slope ≠ 0 := by
  obtain ⟨⟨v, hv, hne⟩, -⟩ := (legalConfig_iff c).1 h
  rwa [configValue_of_finite hv]

theorem dec32Q_posInf : dec32Q 0x7F800000 = .posInf := by
  rw [dec32Q_eq_toRational, show dec32 0x7F800000 = .posInf by decide]
  rfl

theorem dec32Q_negInf : dec32Q 0xFF800000 = .negInf := by
  rw [dec32Q_eq_toRational, show dec32 0xFF800000 = .negInf by decide]
  rfl

/-- R106: a subnormal word stands for its significand in units of 2^(-149), which is not 0. -/
theorem dec32Q_subnormal {w : Word32} (he : expField w = 0) (hm : sigField w ≠ 0) :
    ∃ v, v ≠ 0 ∧ dec32Q w = .finite v := by
  have hvalue : (sigField w : ℚ) / 2 ^ 149 ≠ 0 := div_ne_zero (Nat.cast_ne_zero.2 hm) (by positivity)
  refine ⟨if signBit w = 0 then (sigField w : ℚ) / 2 ^ 149 else -((sigField w : ℚ) / 2 ^ 149), ?_, ?_⟩
  · split
    · exact hvalue
    · exact neg_ne_zero.2 hvalue
  · rw [dec32Q_eq_fields, he, magnitude_zero, if_neg (by simp), if_neg (by decide)]

theorem gainCode_of_zero {c : Config} {w : Word32} (h : dec32Q w = .finite 0) :
    ((gainCode c w).toNat : ℤ) = truncQ (clampQ (configValue c.offset) 0 255) := by
  rw [gainCode_of_finite h, truncQ_clampQ, rawQ, mul_zero, zero_add]

end Sys2Proof.Machine

namespace Sys2Proof.Proofs

open Sys2Proof Sys2Proof.Machine

/-- Settles O51, class by class. -/
theorem gainCodeIsTheRationalFormula : Obligations.GainCodeIsTheRationalFormula := by
  intro c w hc
  obtain ⟨-, -, -, -, -, hn⟩ := legalConfig_spec hc
  exact gainCode_eq_rationalCode fun _ => hn

/-- Settles O53: each infinity by the sign of SLOPE, which R21 keeps from 0. -/
theorem infiniteOperandsSaturateBySlopeSign : Obligations.InfiniteOperandsSaturateBySlopeSign := by
  intro c hc
  refine ⟨configValue_slope_ne_zero hc, fun hpos => ?_, fun hneg => ?_, by decide, by decide⟩
  · exact ⟨(gainCode_of_posInf dec32Q_posInf).trans (if_pos hpos),
      (gainCode_of_negInf dec32Q_negInf).trans (if_pos hpos)⟩
  · exact ⟨(gainCode_of_posInf dec32Q_posInf).trans (if_neg hneg.not_gt),
      (gainCode_of_negInf dec32Q_negInf).trans (if_neg hneg.not_gt)⟩

/-- Settles O54: the zeros and the subnormals are finite operands like any other. -/
theorem zerosAndSubnormalsAreExact : Obligations.ZerosAndSubnormalsAreExact := by
  have hzero : dec32Q 0x00000000 = .finite 0 := dec32Q_of_units (n := 0) (by decide) (by norm_num)
  have hnegZero : dec32Q 0x80000000 = .finite 0 := dec32Q_of_units (n := 0) (by decide) (by norm_num)
  have hleast : dec32Q 0x00000001 = .finite (1 / 2 ^ 149) := dec32Q_of_units (n := 1) (by decide) (by norm_num)
  have hnegLeast : dec32Q 0x80000001 = .finite (-1 / 2 ^ 149) := dec32Q_of_units (n := -1) (by decide) (by norm_num)
  refine ⟨fun c _ => ⟨hzero, hnegZero, gainCode_of_zero hzero, gainCode_of_zero hnegZero⟩, by decide, by decide,
    fun w he hm => ?_, ⟨_, hleast, ?_⟩, by decide, ⟨_, hnegLeast, ?_⟩, by decide⟩
  · obtain ⟨v, hne, hv⟩ := dec32Q_subnormal he hm
    exact ⟨v, hne, hv, fun c _ => by rw [gainCode_of_finite hv, truncQ_clampQ]⟩
  · rw [default_rawQ]
    norm_num
  · rw [default_rawQ]
    norm_num

/-- Settles O55: an infinity stands at the end of the codes that the sign of SLOPE gives it, and between finite operands
raw is monotonic. -/
theorem gainCodeIsMonotonic : Obligations.GainCodeIsMonotonic := by
  intro c w w' _ h
  rcases DecodedQ.atMost_cases h with hw | hw' | ⟨u, v, hw, hw', hle⟩
  · rw [gainCode_of_negInf hw]
    exact ⟨fun hpos => by simp [hpos], fun hneg => by simpa [hneg.not_gt] using code_toNat_le _⟩
  · rw [gainCode_of_posInf hw']
    exact ⟨fun hpos => by simpa [hpos] using code_toNat_le _, fun hneg => by simp [hneg.not_gt]⟩
  · exact ⟨fun hpos => gainCode_mono_of_rawQ hw hw' (rawQ_mono_of_pos hpos hle),
      fun hneg => gainCode_mono_of_rawQ hw' hw (rawQ_anti_of_neg hneg hle)⟩

/-- Settles O56: raw against 1 and 255, solved for the operand. -/
theorem saturationThresholdsAreExact : Obligations.SaturationThresholdsAreExact := by
  intro c w v _ h
  have hzero {c : Config} := gainCode_eq_zero_iff (c := c) h
  have hmax {c : Config} := gainCode_eq_max_iff (c := c) h
  refine ⟨hzero, hmax, fun hpos => ⟨?_, ?_, fun hle => ?_⟩, fun hneg => ⟨?_, ?_⟩, ?_, ?_⟩
  · exact hzero.trans (rawQ_lt_iff_of_pos hpos v 1)
  · exact hmax.trans (le_rawQ_iff_of_pos hpos v 255)
  · have hbelow : -configValue c.offset / configValue c.slope < (1 - configValue c.offset) / configValue c.slope :=
      div_lt_div_of_pos_right (by linarith) hpos
    exact hzero.2 ((rawQ_lt_iff_of_pos hpos v 1).2 (hle.trans_lt hbelow))
  · exact hzero.trans (rawQ_lt_iff_of_neg hneg v 1)
  · exact hmax.trans (le_rawQ_iff_of_neg hneg v 255)
  · rw [hzero, default_rawQ]
    constructor <;> intro <;> linarith
  · rw [hmax, default_rawQ]
    constructor <;> intro <;> linarith

/-- Settles O57: a whole OFFSET comes out of the floor. -/
theorem defaultMappingCountsHalfDecibelSteps : Obligations.DefaultMappingCountsHalfDecibelSteps := by
  intro c w v hslope hoffset h
  have hfloor : ⌊rawQ c v⌋ = ⌊2 * v⌋ + 192 := by
    rw [rawQ, hslope, hoffset, Int.floor_add_ofNat]
  rw [gainCode_of_finite h, hfloor]

/-- Settles O52; MAP completes in every state (`mapAnswersInEveryPhase`). -/
theorem nanOperandGivesTheNanCode : Obligations.NanOperandGivesTheNanCode := by
  refine ⟨fun c w hc h => ?_, rfl⟩
  obtain ⟨-, -, -, -, -, hn⟩ := legalConfig_spec hc
  refine ⟨gainCode_of_nan hc h, hn, fun s hs => ?_⟩
  obtain ⟨t, ht, -, hout⟩ := mapAnswersInEveryPhase w s
  exact ⟨t, ht, by rw [hout, hs, gainCode_of_nan hc h]⟩

end Sys2Proof.Proofs
end

section
/-! The statement of 41_controller_init_mute.md: what the instructions that start no transfer leave unchanged of the bus
and of the block (R112, R135, R159, R193), and which events they append (R133, R134, R190). -/

namespace Sys2Proof.Machine

/-! ### Moves that leave the bus alone -/

/-- R34, R35, R159: chip-select, the block, the ghost codes, the wire and SER's coming answers are in `t` as in `s`. -/
structure State.SameBus (s t : State) : Prop where
  csLevel : t.csLevel = s.csLevel
  blockState : t.blockState = s.blockState
  setL : t.setL = s.setL
  setR : t.setR = s.setR
  wire : t.wire = s.wire
  ser : t.ser = s.ser
  draws : t.draws = s.draws

/-- The events that do not concern the bus: a write of the mute line, and a Done. -/
def Event.OffBus (e : Event) : Prop := (∃ v, e = .setLevel .mute v) ∨ ∃ r, e = .done r

theorem offBus_muteLevel (v : Level) : (Event.setLevel .mute v).OffBus := .inl ⟨v, rfl⟩

theorem offBus_done (r : Result) : (Event.done r).OffBus := .inr ⟨r, rfl⟩

section SameBus
variable (s : State)

theorem driveMapIn_sameBus (w : Word32) : s.SameBus (s.driveMapIn w) := ⟨rfl, rfl, rfl, rfl, rfl, rfl, rfl⟩

theorem holdOffer_sameBus (w : CmdWord) : s.SameBus (s.holdOffer w) := ⟨rfl, rfl, rfl, rfl, rfl, rfl, rfl⟩

theorem muteWrite_sameBus (v : Level) : s.SameBus ((s.emitLevel .mute v).report .ok) :=
  ⟨rfl, rfl, rfl, rfl, rfl, rfl, rfl⟩

theorem raiseFailure_sameBus (f : Failure) : s.SameBus (s.raiseFailure f) := ⟨rfl, rfl, rfl, rfl, rfl, rfl, rfl⟩

end SameBus

section NotSetgain
variable {i : Instr} {s t : State}

theorem exec_sameBus (hi : ∀ a b, i ≠ .setgain a b) (h : exec i s = .next t) : s.SameBus t := by
  rcases exec_eq_next h with ⟨w, -, rfl⟩ | ⟨-, w, rfl⟩ | ⟨-, -, v, rfl⟩ | ⟨-, a, b, hset, -⟩ | ⟨-, op, rfl⟩
  · exact driveMapIn_sameBus s w
  · exact holdOffer_sameBus s w
  · exact muteWrite_sameBus s v
  · exact absurd hset (hi a b)
  · exact raiseFailure_sameBus s _

/-- SETGAIN needs no exception here: the step that accepts it appends no event (R151). -/
theorem exec_appends_offBus (h : exec i s = .next t) : ∃ es, s.Appends t es ∧ ∀ e ∈ es, e.OffBus := by
  rcases exec_eq_next h with ⟨w, -, rfl⟩ | ⟨-, w, rfl⟩ | ⟨-, -, v, rfl⟩ | ⟨-, a, b, -, rfl⟩ | ⟨-, op, rfl⟩
  · exact ⟨_, driveMapIn_appends s w, by simp⟩
  · exact ⟨_, holdOffer_appends s w, by simp⟩
  · exact ⟨_, muteWrite_appends s v, by simp [offBus_muteLevel, offBus_done]⟩
  · exact ⟨_, afterAccept_appends s a b, by simp⟩
  · exact ⟨_, raiseFailure_appends s _, by simp [offBus_done]⟩

end NotSetgain

end Sys2Proof.Machine

namespace Sys2Proof.Proofs

open Sys2Proof Sys2Proof.Machine

/-- Settles O42: of the cases of what a meaning can do, only the one that latches SETGAIN's codes writes the block. -/
theorem onlySetgainUsesTheBus : Obligations.OnlySetgainUsesTheBus := by
  intro i s t hi h
  obtain ⟨hcs, hblock, hsetL, hsetR, hwire, hser, hdraws⟩ := exec_sameBus hi h
  obtain ⟨es, happ, hoff⟩ := exec_appends_offBus h
  exact ⟨hcs, hblock, hsetL, hsetR, hwire, hser, hdraws, es, happ.events, hoff⟩

end Sys2Proof.Proofs
end

section
/-! The statements of 42_set_gain.md. What each step of a SETGAIN writes (R151 to R156), the state its six steps and the
whole operation end in (R150, R161, R167), the bytes of its Transmit (R163, R168), which steps write the ghost codes and
the mute line (R161, R166), and that every run of every legal record goes through and follows the protocol (R157,
R235). -/

namespace Sys2Proof.Machine

/-! ### The step that accepts (R151) -/

/-- The four payloads in canonical form (R51). -/
theorem Payload.wf_cases {m : Payload} (h : Payload.wf m = true) :
    m = [] ∨ (∃ u, m = [(0, u)]) ∨ (∃ u, m = [(1, u)]) ∨ ∃ u v, m = [(0, u), (1, v)] := by
  simp only [Payload.wf, Bool.and_eq_true, decide_eq_true_eq, List.all_eq_true] at h
  obtain ⟨hrising, hbound⟩ := h
  have address {n : Nat} (hn : n < 2) : n = 0 ∨ n = 1 := by omega
  match m with
  | [] => exact .inl rfl
  | [(a, u)] =>
    rcases address (hbound (a, u) (by simp)) with rfl | rfl
    · exact .inr (.inl ⟨u, rfl⟩)
    · exact .inr (.inr (.inl ⟨u, rfl⟩))
  | [(a, u), (b, v)] =>
    have hab : a < b := by simpa using hrising
    have hb : b < 2 := hbound (b, v) (by simp)
    obtain ⟨rfl, rfl⟩ : a = 0 ∧ b = 1 := by omega
    exact .inr (.inr (.inr ⟨u, v, rfl⟩))
  | (a, u) :: (b, v) :: (c, w) :: rest =>
    have hab : a < b := List.rel_of_pairwise_cons (a' := (b, v)) hrising (by simp)
    have hbc : b < c := List.rel_of_pairwise_cons (a' := (c, w)) hrising.of_cons (by simp)
    have hc : c < 2 := hbound (c, w) (by simp)
    omega

/-- Filling both addresses leaves nothing of what a canonical payload held. -/
theorem Payload.fill_eq {m : Payload} (l r : Code) (h : Payload.wf m = true) :
    Payload.insert (Payload.insert m 0 l) 1 r = [(0, l), (1, r)] := by
  rcases Payload.wf_cases h with rfl | ⟨u, rfl⟩ | ⟨u, rfl⟩ | ⟨u, v, rfl⟩ <;> rfl

theorem afterAccept_eq {s : State} (a b : Word32) (h : Payload.wf s.pay = true) :
    s.afterAccept a b = { s with
      lcode := some (gainCode s.cfg a), rcode := some (gainCode s.cfg b)
      pay := [(0, gainCode s.cfg a), (1, gainCode s.cfg b)], phase := .sAssert } := by
  rw [State.afterAccept, Payload.fill_eq _ _ h]

theorem busy_of_phase {s : State} (hp : s.phase ≠ .idle) : s.busy = true ∧ s.cmdReady = false := by
  simp [State.cmdReady, (busy_iff s).2 hp]

/-! ### The step out of S_RELEASE (R156) -/

/-- R156, R158: reporting an answer is one Done event and nothing else. -/
theorem reportAnswer_eq (a : XferAnswer) (s : State) :
    s.reportAnswer a = { s with events := s.events ++ [.done (answerResult a)] } := by
  cases a <;> rfl

/-- Everything the step out of S_RELEASE writes. -/
theorem afterRelease_eq (a : XferAnswer) (l r : Code) (s : State) :
    s.afterRelease a l r = { s with
      csLevel := some s.cfg.csActiveLevel.inverse
      events := s.events ++ [.setLevel .cs s.cfg.csActiveLevel.inverse, .done (answerResult a)]
      setL := if a = .success then some l else none, setR := if a = .success then some r else none
      lcode := none, rcode := none, pay := [], res := none, phase := .idle } := by
  rw [State.afterRelease, reportAnswer_eq, State.emitLevel_cs_events, List.append_assoc]
  rfl

/-- R156: the release reads RES and the two code latches, and not the payload. -/
theorem advance_of_sRelease_latches {s : State} {a : XferAnswer} {l r : Code} (hp : s.phase = .sRelease)
    (ha : s.res = some a) (hl : s.lcode = some l) (hr : s.rcode = some r) :
    advance s = .next (s.afterRelease a l r) := by
  simp only [advance, hp, stepRelease, ha, readLatch_some]
  rw [settleGhost_of_codes (l := l) (r := r) (by simpa using hl) (by simpa using hr)]
  rfl

/-! ### The whole SETGAIN (R150, R167) -/

/-- Everything the six steps of a SETGAIN write, its events apart (`afterSetgain_events`). -/
theorem afterSetgain_eq (x y : Word32) (s : State) :
    s.afterSetgain x y = { s with
      csLevel := some s.cfg.csActiveLevel.inverse
      events := (s.afterSetgain x y).events
      setL := if s.serAnswer = .success then some (gainCode s.cfg x) else none
      setR := if s.serAnswer = .success then some (gainCode s.cfg y) else none
      lcode := none, rcode := none, pay := [], res := none, phase := .idle
      wire := s.wire ++ clockedBits s.nextReply (gainCode s.cfg x) (gainCode s.cfg y)
      ser := s.ser.tail, draws := if s.ser.isEmpty then s.draws + 1 else s.draws } := by
  unfold State.afterSetgain
  rw [afterRelease_eq]
  rfl

/-- R150 steps 1 and 2: what a SETGAIN's acceptance latches, with PHASE as it was. -/
theorem latchCodes_eq_afterAccept (x y : Word32) (s : State) (k : State → Answer) :
    latchCodes x y s k = k ((s.afterAccept x y).setPhase s.phase) := rfl

/-- R150 against R151 to R156: PHASE is all that the whole operation leaves out, and both have it at IDLE in the end. -/
theorem setgainWhole_of_idle {s : State} (x y : Word32) (hp : s.phase = .idle) :
    setgainWhole x y s = .next (s.afterSetgain x y) := by
  obtain ⟨hl, hr, h0, h1⟩ : ((s.afterAccept x y).setPhase s.phase).HoldsCodes (gainCode s.cfg x) (gainCode s.cfg y) :=
    afterAccept_holdsCodes x y s
  rw [setgainWhole, latchCodes_eq_afterAccept, memReadByte_of_lookup (by decide) h0, orFault_ok,
    memReadByte_of_lookup (by decide) h1, orFault_ok]
  dsimp only
  rw [settleGhost_of_codes (l := gainCode s.cfg x) (r := gainCode s.cfg y) (by simpa using hl) (by simpa using hr),
    hp, State.afterSetgain, State.afterRelease, reportAnswer_eq, reportAnswer_eq]
  rfl

/-- R31: the block is after a SETGAIN as it was before it, with no value in any latch. -/
theorem afterSetgain_blockState {s : State} (x y : Word32) (hp : s.phase = .idle) (hf : s.latchesFit) :
    (s.afterSetgain x y).blockState = s.blockState := by
  obtain ⟨hl, hr, hpay, hres⟩ := (latchesFit_of_idle hp).1 hf
  rw [afterSetgain_eq]
  simp only [State.blockState, hp, hl, hr, hpay, hres]

/-! ### The bytes of the Transmit (R163, R168) -/

theorem transmits_append (es fs : List Event) : transmits (es ++ fs) = transmits es ++ transmits fs :=
  List.filter_append _ _

/-- R163: the one Transmit of a SETGAIN carries the code of A and the code of B under the record. -/
theorem afterSetgain_transmits (x y : Word32) (s : State) :
    transmits (s.afterSetgain x y).events = transmits s.events ++
      [.transmit (gainCode s.cfg x) (gainCode s.cfg y) 2 s.cfg.timeoutMs.toNat s.serAnswer] := by
  rw [afterSetgain_events, transmits_append]
  rfl

/-- The six steps from an offer of SETGAIN, and the one Transmit they add. -/
theorem setgain_offer_transmits {s : State} (x y : Word32) {rest : List HostMove} (hp : s.phase = .idle)
    (hk : State.hostKeepsOffer { s with host := rest }) :
    ∃ t, steps 6 { s with host := .command (commandWord 0x03 x y) true :: rest } = .next t ∧
      transmits t.events = transmits s.events ++
        [.transmit (gainCode s.cfg x) (gainCode s.cfg y) 2 s.cfg.timeoutMs.toNat s.serAnswer] :=
  ⟨_, steps_of_setgain_offer (s := { s with host := .command (commandWord 0x03 x y) true :: rest }) hp rfl hk,
    afterSetgain_transmits x y (s.setHost rest)⟩

/-! ### The ghost codes (R161) -/

/-- The ghost codes are in `t` as in `s`. -/
def State.SameGhost (s t : State) : Prop := t.setL = s.setL ∧ t.setR = s.setR

section Ghost
variable {s t : State}

theorem advance_sameGhost (h : advance s = .next t) : (s.phase = .sRelease ∧ t.phase = .idle) ∨ s.SameGhost t := by
  rcases advance_eq_next h with ⟨-, rfl⟩ | ⟨-, rfl⟩ | ⟨-, rfl⟩ | ⟨-, b0, b1, -, -, rfl⟩ | ⟨-, rfl⟩ |
    ⟨hp, a, gl, gr, -, -, rfl⟩
  case inr.inr.inr.inr.inr => exact .inl ⟨hp, rfl⟩
  all_goals exact .inr ⟨rfl, rfl⟩

theorem exec_sameGhost {i : Instr} (h : exec i s = .next t) : s.SameGhost t := by
  rcases exec_eq_next h with ⟨w, -, rfl⟩ | ⟨-, w, rfl⟩ | ⟨-, -, v, rfl⟩ | ⟨-, x, y, -, rfl⟩ | ⟨-, op, rfl⟩
  all_goals exact ⟨rfl, rfl⟩

/-- R161: of all steps only the one from S_RELEASE to IDLE writes the ghost codes. -/
theorem step_sameGhost (h : step s = .next t) : (s.phase = .sRelease ∧ t.phase = .idle) ∨ s.SameGhost t := by
  obtain ⟨moves, hm | ⟨w, hm⟩ | ⟨-, w, hm⟩⟩ := step_cases s <;> rw [hm] at h
  · exact advance_sameGhost (s := s.setHost moves) h
  · exact .inr (exec_sameGhost (s := s.setHost moves) h)
  · exact .inr (exec_sameGhost (s := s.setHost moves) h)

end Ghost

/-! ### The mute line (R166) -/

/-- R34: a line that no event writes keeps its level. -/
theorem level_of_unwritten {l : Line} {es : List Event} (h : ∀ v, .setLevel l v ∉ es) (cur : Option Level) :
    es.foldl (levelAfter l) cur = cur := by
  induction es generalizing cur with
  | nil => rfl
  | cons e es ih =>
    have hkeep : levelAfter l cur e = cur := by
      cases e with
      | setLevel l' v => exact if_neg fun hl => h v (by simp [hl])
      | _ => rfl
    rw [List.foldl_cons, hkeep]
    exact ih (fun v hv => h v (List.mem_cons_of_mem _ hv)) cur

/-- Whatever CTRL's move appends, no write of the mute line is among it. -/
theorem advance_appends_no_mute {s t : State} (h : advance s = .next t) :
    ∃ es, s.Appends t es ∧ ∀ v, .setLevel .mute v ∉ es := by
  rcases advance_eq_next h with ⟨-, rfl⟩ | ⟨-, rfl⟩ | ⟨-, rfl⟩ | ⟨-, b0, b1, -, -, rfl⟩ | ⟨-, rfl⟩ |
    ⟨-, a, gl, gr, -, -, rfl⟩
  · exact ⟨[], setHost_appends t t.host, by simp⟩
  · exact ⟨_, afterAssert_appends s, by simp⟩
  · exact ⟨_, afterSetup_appends s, by simp⟩
  · exact ⟨_, afterXfer_appends s b0 b1, by simp⟩
  · exact ⟨_, afterHold_appends s, by simp⟩
  · refine ⟨[.setLevel .cs s.cfg.csActiveLevel.inverse, .done (answerResult a)], ?_, by simp⟩
    rw [reportAnswer_eq]
    exact ⟨rfl, List.append_assoc _ _ _, rfl, rfl⟩

/-- R151, R71: a SETGAIN handed over starts the sequence or waits. -/
theorem exec_setgain_eq_next {a b : Word32} {s t : State} (h : exec (.setgain a b) s = .next t) :
    t = s.afterAccept a b ∨ ∃ w, t = s.holdOffer w := by
  by_cases hp : s.phase = .idle
  · rw [exec_setgain_of_idle a b hp] at h
    cases h
    exact .inl rfl
  · obtain ⟨perform, hexec⟩ := exec_eq_accept (i := .setgain a b) rfl
    rw [hexec, accept_of_busy hp] at h
    cases h
    exact .inr ⟨_, rfl⟩

/-! ### Runs of any length (R157, R235) -/

/-- A run goes through when every step does and keeps what the next one needs. -/
theorem steps_complete {P : State → Prop} (hnext : ∀ s, P s → ∃ t, step s = .next t)
    (hkeep : ∀ s t, P s → step s = .next t → P t) (n : Nat) {s : State} (hs : P s) :
    ∃ t, steps n s = .next t ∧ P t := by
  induction n generalizing s with
  | zero => exact ⟨s, rfl, hs⟩
  | succ n ih =>
    obtain ⟨u, hu⟩ := hnext s hs
    rw [steps_succ_of_next n hu]
    exact ih (hkeep s u hs hu)

/-- The environment a constructed machine meets is no part of its run. -/
theorem init_with_script_goodRun {c : Config} (moves : List HostMove) (replies : List SerReply)
    (h : legalConfig c = true) : State.GoodRun { State.init c with host := moves, ser := replies } :=
  ⟨init_with_script_inv moves replies h, ⟨rfl, rfl⟩, rfl, rfl⟩

end Sys2Proof.Machine

namespace Sys2Proof.Proofs

open Sys2Proof Sys2Proof.Machine

/-- Settles O13: both codes go into latches and payload, whatever a canonical payload held. -/
theorem setgainLatchesBothCodesAndStartsTheSequence : Obligations.SetgainLatchesBothCodesAndStartsTheSequence := by
  refine ⟨fun _ => decodeCommand_setgain, fun a b s hp hwf => ?_⟩
  obtain ⟨hbusy, hready⟩ := busy_of_phase (s := s.afterAccept a b) nofun
  exact ⟨_, exec_setgain_of_idle a b hp, hbusy, hready, afterAccept_eq a b hwf⟩

/-- Settles O17: the named state out of S_ASSERT, written out. -/
theorem assertStepSelectsTheChip : Obligations.AssertStepSelectsTheChip :=
  fun _ => advance_of_sAssert

/-- Settles O18: the named states out of S_SETUP and S_HOLD, which no latch enters. -/
theorem delayStepsEmitTheirOwnDelay : Obligations.DelayStepsEmitTheirOwnDelay :=
  fun _ => ⟨advance_of_sSetup, advance_of_sHold⟩

/-- Settles O20: the step reads RES and the two code latches, and its named state is written out. -/
theorem releaseStepDeselectsReportsAndClears : Obligations.ReleaseStepDeselectsReportsAndClears := by
  intro s a l r hp ha hl hr
  rw [advance_of_sRelease_latches hp ha hl hr, afterRelease_eq]

/-- Settles O22: the six steps and the whole operation end in one state, which has the six events. -/
theorem setgainEmitsExactlyItsSixEvents : Obligations.SetgainEmitsExactlyItsSixEvents := by
  intro s a b keep rest hinv hp hh hk
  obtain ⟨-, -, hlatches, -, -⟩ := hinv
  refine ⟨_, steps_of_setgain_offer hp hh hk, ?_, afterSetgain_blockState (s := s.setHost rest) a b hp hlatches,
    afterSetgain_events a b (s.setHost rest), _, setgainWhole_of_idle (s := s.setHost rest) a b hp, rfl⟩
  rw [afterSetgain_eq, State.setHost_host]

/-- Settles O23: both end in the named state after a SETGAIN. -/
theorem sixStepsRefineTheWholeSetgain : Obligations.SixStepsRefineTheWholeSetgain :=
  fun s a b _ rest _ hp hh hk =>
    ⟨_, steps_of_setgain_offer hp hh hk, setgainWhole_of_idle (s := s.setHost rest) a b hp⟩

/-- Settles O24: the state after the six steps, on success and after a failure. -/
theorem everyAnswerEndsWithTheChipReleased : Obligations.EveryAnswerEndsWithTheChipReleased := by
  intro s a b keep rest _ hp hh hk
  refine ⟨_, steps_of_setgain_offer hp hh hk, ?_⟩
  rw [afterSetgain_eq]
  exact ⟨rfl, rfl, fun hok => ⟨if_pos hok, if_pos hok⟩, fun hfail => ⟨if_neg hfail, if_neg hfail⟩⟩

/-- Settles O26: each run's one Transmit carries the codes of A and B under the record that the two states share. -/
theorem transmittedBytesDependOnOperandsAndRecordOnly : Obligations.TransmittedBytesDependOnOperandsAndRecordOnly := by
  intro s s' a b rest rest' _ _ hp hp' hcfg hk hk'
  obtain ⟨t, ht, hsent⟩ := setgain_offer_transmits a b hp hk
  obtain ⟨t', ht', hsent'⟩ := setgain_offer_transmits a b hp' hk'
  rw [hcfg] at hsent'
  exact ⟨t, t', _, _, _, _, ht, ht', hsent, hsent'⟩

/-- Settles O27: the first byte is the code of A and the second that of B. -/
theorem eachOperandReachesItsOwnByteOnly : Obligations.EachOperandReachesItsOwnByteOnly := by
  intro s a b a' b' rest _ hp hk
  obtain ⟨t, ht, hsent⟩ := setgain_offer_transmits a b hp hk
  obtain ⟨ta, hta, hsenta⟩ := setgain_offer_transmits a' b hp hk
  obtain ⟨tb, htb, hsentb⟩ := setgain_offer_transmits a b' hp hk
  exact ⟨t, ta, tb, _, _, _, _, _, ht, hta, htb, hsent, hsenta, hsentb⟩

/-- Settles O35: no step from a good run stops, and every step keeps the run good (O33, O34). -/
theorem everyRunOfEveryLegalRecordFollowsTheProtocol : Obligations.EveryRunOfEveryLegalRecordFollowsTheProtocol :=
  fun _ moves replies n hc =>
    steps_complete (fun s hs => noStepFromAGoodStateStops s hs.1) everyStepKeepsTheProtocol n
      (init_with_script_goodRun moves replies hc)

/-- Settles O40: the one exception of `step_sameGhost` is the step that the hypothesis excludes. -/
theorem ghostCodesChangeOnlyAtRelease : Obligations.GhostCodesChangeOnlyAtRelease := by
  intro s t h hne
  rcases step_sameGhost h with ⟨hp, ht⟩ | hsame
  · exact absurd ⟨hp, ht⟩ (not_and_or.2 hne)
  · exact hsame

/-- Settles O41: no event of CTRL's moves names the mute line, and only such an event changes its level. -/
theorem setgainLeavesTheMuteLineAlone : Obligations.SetgainLeavesTheMuteLineAlone := by
  refine ⟨fun a b s t h => ?_, fun s t h => ?_⟩
  · rcases exec_setgain_eq_next h with rfl | ⟨w, rfl⟩
    · exact ⟨rfl, rfl⟩
    · exact ⟨rfl, rfl⟩
  · obtain ⟨es, happ, hmute⟩ := advance_appends_no_mute h
    exact ⟨happ.muteLevel.trans (level_of_unwritten hmute _), es, happ.events, hmute⟩

end Sys2Proof.Proofs
end

section
/-! The statement of 60_exceptions.md: what an accepted command word with a reserved OP does (R74, R193). -/

namespace Sys2Proof.Proofs

open Sys2Proof Sys2Proof.Machine

/-- Settles O15: whichever reserved row the word falls under, its meaning is the shared one; IDLE accepts it, and raising
its failure records a Result in which no OP occurs (O16). -/
theorem acceptedReservedOpcodeIsAnIllegalCommand : Obligations.AcceptedReservedOpcodeIsAnIllegalCommand := by
  intro w s h1 h2 h3 hp
  obtain ⟨hraise, -⟩ := raisingAFailureRecordsOnlyItsResult
  calc exec (decodeCommand w) s
      = illegalCommand (cmdOp w) (cmdA w) (cmdB w) s := exec_decodeCommand_reserved h1 h2 h3 s
    _ = .next (s.raiseFailure (.illegalCmd (cmdOp w))) := illegalCommand_of_idle _ _ _ hp
    _ = .next { s with events := s.events ++ [.done .illegalCmd] } := by rw [hraise]; rfl

end Sys2Proof.Proofs
end

section
/-! The statements of 70_reset_and_hazards.md: every sequence ends (R235), chip-select is released whenever the block is
at rest (R236), and what a later reset leaves of the lines (R220, R221). -/

namespace Sys2Proof.Machine

/-! ### PHASE counts down to IDLE (R235) -/

/-- R30: only IDLE has the code 0. -/
theorem Phase.bits_toNat_pos {p : Phase} (hp : p ≠ .idle) : 0 < p.bits.toNat := by
  have hcode : p.bits ≠ 0 := fun h => hp (Phase.bits_injective h)
  bv_omega

/-- R235: a SETGAIN in progress is over after as many steps as PHASE is short of 6. -/
theorem steps_to_idle {s : State} (hp : s.phase ≠ .idle) (hf : s.latchesFit) (hk : s.hostKeepsOffer) :
    ∃ t, steps (6 - s.phase.bits.toNat) s = .next t ∧ t.phase = .idle := by
  obtain ⟨l, r, hc⟩ := (latchesFit_codesLatched hp hf).holdsCodes
  obtain ⟨t, hrun, hend⟩ := setgain_ends hp hf hk hc
  exact ⟨t, hrun, hend.phase⟩

/-! ### Chip-select at rest (R236) -/

/-- A line has two levels, so one that is not at `v` was never written or is at the other. -/
theorem level_ne_iff (cur : Option Level) (v : Level) : cur ≠ some v ↔ cur = none ∨ cur = some v.inverse := by
  rcases cur with - | (- | -) <;> cases v <;> decide

/-- R159, R34: the invariant speaks of the level of chip-select, and that is what its last SetLevel wrote. -/
theorem goodRun_released_at_rest {s : State} (h : s.GoodRun) (hp : s.phase = .idle) :
    lastLevel .cs s.events = none ∨ lastLevel .cs s.events = some s.cfg.csActiveLevel.inverse := by
  obtain ⟨⟨-, -, -, hcs, -⟩, -, hlast, -⟩ := h
  rw [← level_ne_iff, ← hlast]
  exact (chipSelectFits_of_deselected (.inl hp)).1 hcs

/-- R20: the record of a run is the one it began with. -/
theorem steps_cfg {n : Nat} {s t : State} (h : steps n s = .next t) : t.cfg = s.cfg :=
  steps_keep (P := fun u => u.cfg = s.cfg)
    (fun u v hu huv => (Proofs.noStepChangesTheConfiguration u v huv).trans hu) rfl h

end Sys2Proof.Machine

namespace Sys2Proof.Proofs

open Sys2Proof Sys2Proof.Machine

/-- Settles O30: a busy PHASE has a code from 1 to 5, and 6 less that code is the number of steps still to come. -/
theorem everySequenceEndsWithinFiveSteps : Obligations.EverySequenceEndsWithinFiveSteps := by
  intro s hinv hk
  obtain ⟨-, -, hf, -, -⟩ := hinv
  by_cases hp : s.phase = .idle
  · exact ⟨0, s, by omega, rfl, hp⟩
  · obtain ⟨t, hrun, ht⟩ := steps_to_idle hp hf hk
    have hpos := Phase.bits_toNat_pos hp
    exact ⟨_, t, by omega, hrun, ht⟩

/-- Settles O36: a step and a run from construction both end in a good run (O34), which at rest has chip-select
released. -/
theorem chipSelectIsReleasedAtRest : Obligations.ChipSelectIsReleasedAtRest := by
  refine ⟨fun s t hs h hp => goodRun_released_at_rest (everyStepKeepsTheProtocol s t hs h) hp,
    fun c moves replies n t hc h hp => ?_⟩
  have hgood : t.GoodRun := steps_keep everyStepKeepsTheProtocol (init_with_script_goodRun moves replies hc) h
  have hcfg : t.cfg = c := steps_cfg h
  rw [← hcfg]
  exact goodRun_released_at_rest hgood hp

/-- Settles O47: reset writes no line, and the invariant has chip-select active in the four phases (R159). -/
theorem laterResetKeepsTheLineLevels : Obligations.LaterResetKeepsTheLineLevels := by
  refine fun s => ⟨rfl, rfl, rfl, rfl, rfl, fun hinv hp => ?_⟩
  obtain ⟨-, -, -, hcs, -⟩ := hinv
  exact (chipSelectFits_of_selected hp).1 hcs

end Sys2Proof.Proofs
end
